-- ==== Sys2Proof/Word.lean ====
section
/-! DEFINITION. The word types of the i387 model: bytes, memory words and the 80-bit register image.
Widths are those of spec/10_state.md R21 and spec/20_memory.md R74. -/

namespace Sys2Proof

/-- A memory byte (spec/20_memory.md R70). -/
abbrev Byte := BitVec 8

/-- A 16-bit word: control, status and tag word images, selectors, AX. -/
abbrev Word := BitVec 16

/-- A 32-bit doubleword: offsets, general registers, the data bus D31-D0. -/
abbrev DWord := BitVec 32

/-- The 80-bit image of a data register: bit 79 sign, bits 78-64 exponent, bits 63-0 significand (R21). -/
abbrev Ext := BitVec 80

/-- A stack-relative register number ST(i), or a physical register number, 0 to 7 (R22). -/
abbrev Idx := BitVec 3

end Sys2Proof
end

