-- ==== Sys2Proof/Config.lean ====
section
/-! DEFINITION. What the spec leaves open: the implementation parameters of spec/00_scope.md R9 and the `draw` of
R15. Each is an opaque constant, so no proof can see its value (assumption log 11, 16, 17, 18, 19). -/

namespace Sys2Proof

/-- The places where the spec says `draw`: each names one undefined value of one instruction, so that two draws of
one instruction are independent of one another (spec/00_scope.md R15). -/
inductive Draw where
  /-- C3, C2, C0 where the instruction's row of R30 says UNDEFINED (R177, parameter UNDEF_CC). -/
  | conditionCode
  /-- C1 where it too is drawn (R309, R320 f, R334). -/
  | roundup
  /-- The whole data pointer after an instruction with no memory operand (R46). -/
  | dataPointer
  /-- The linear form of the instruction pointer saved in protected mode (R44, log 14). -/
  | codeLinear
  /-- The linear form of the data pointer saved in protected mode (R44, log 14). -/
  | dataLinear
  /-- The parts of the instruction pointer that a loaded image does not carry (R52, R331, log 15). -/
  | codeImage
  /-- The parts of the data pointer that a loaded image does not carry. -/
  | dataImage
  /-- FOP after a load from the 16-bit protected format (R47). -/
  | opcodeImage
  /-- Control word bits 15-13, 7 and 6 on a store (R41). -/
  | controlReserved
  /-- The k-th RESERVED 16-bit field of a stored environment image (R49). -/
  | imageReserved (k : Nat)
  /-- An out-of-range operand's result (F2XM1, FYL2XP1: R306, R308). -/
  | outOfRange
  /-- Its PE, UE and OE flags. -/
  | outOfRangeFlags
  /-- Data register k after interrupt 9 (R413). -/
  | overrunRegister (k : Nat)
  /-- The tags after interrupt 9. -/
  | overrunTags
  /-- The status word after interrupt 9. -/
  | overrunStatus
  /-- FIP after interrupt 9. -/
  | overrunCodePointer
  /-- FDP after interrupt 9. -/
  | overrunDataPointer
  /-- FOP after interrupt 9. -/
  | overrunOpcode
  /-- The return address the handler of interrupt 9 sees. -/
  | overrunReturn
  /-- The byte at a linear address of a store operand cut short by interrupt 9. -/
  | overrunByte (a : Nat)
  /-- Data register k after the RESETIN pulse (R450). -/
  | resetRegister (k : Nat)
  /-- FIP, FDP and FOP after the RESETIN pulse (R450). -/
  | resetCodePointer
  | resetDataPointer
  | resetOpcode
  /-- Lines D31-D16 of a read of the command port, and D31-D0 of a data read from an empty FIFO (R362, log 38). -/
  | portData
deriving DecidableEq, Repr

/-- The eight functions of the parameter TRANSC (spec/45_transcendental.md R300); FSINCOS uses `sin` and `cos`. -/
inductive TranscFn where
  | cos | tan | sin | atan2 | f2xm1 | yl2x | yl2xp1
deriving DecidableEq, Repr

/-- The nonnegative real magnitude a transcendental algorithm computes, as far as any rounding of it can tell: zero,
or a number in [(2^66 + frac) * 2^(expo-66), (2^66 + frac + 1) * 2^(expo-66)), equal to the lower end exactly when
`sticky` is false. -/
structure TranscValue where
  zero : Bool
  expo : Int
  frac : BitVec 66
  sticky : Bool
deriving DecidableEq, Repr, Inhabited

/-- A value the spec leaves open (`draw`), w bits wide; n is the state's draw counter. FREE VALUE (log 11). -/
opaque Config.draw (w : Nat) (what : Draw) (n : Nat) : BitVec w

/-- Parameter TININESS: true = before_rounding, false = after_rounding (R165). FREE VALUE (log 16). -/
opaque Config.tininessBeforeRounding : Bool

/-- Parameter NAN_RULE for two different NaN patterns, given in rising order as unsigned numbers: true picks the
second, false the first (R158). FREE VALUE (log 17). -/
opaque Config.nanPicksLarger (lo hi : Ext) : Bool

/-- Parameter TRANSC: the magnitude the algorithm computes from the operand patterns (R300). FREE VALUE (log 18). -/
opaque Config.transc (f : TranscFn) (x y : Ext) : TranscValue

/-- Parameter PREM_STEP, less 32: the step N of an incomplete FPREM is 32 plus this (R286). FREE VALUE (log 19). -/
opaque Config.premStepOffset (d : Nat) : BitVec 5

/-- Whether a read of the command port after an opcode word returns the control word, else the status word (spec/
47_hardware_interface.md R362). FREE VALUE (log 38). -/
opaque Config.portReadsControl (opcode : DWord) : Bool

end Sys2Proof
end

