-- ==== Sys2Proof/Syntax.lean ====
section
/-! DEFINITION. The instructions of spec/opcode_table.json, one constructor for each of its 121 rows, over prefix bytes
and memory operands in the shape of spec/30_encoding.md R104, R105, R112. -/

namespace Sys2Proof

/-- The six segment registers of the host (spec/10_state.md R20). -/
inductive SegReg where
  | es | cs | ss | ds | fs | gs
deriving DecidableEq, Repr

/-- The eight general registers of the host, in the order of their 3-bit numbers (R112). -/
inductive Gpr where
  | eax | ecx | edx | ebx | esp | ebp | esi | edi
deriving DecidableEq, Repr

/-- A CPU byte before the opcode (R105). -/
inductive PrefixByte where
  /-- 26h, 2Eh, 36h, 3Eh, 64h, 65h: the segment of the memory operand. -/
  | seg (r : SegReg)
  /-- 66h: the other operand size for this instruction. -/
  | opSize
  /-- 67h: the other address size for this instruction. -/
  | adSize
deriving DecidableEq, Repr

/-- A displacement of an address form w bits wide: none, disp8 (sign-extended), or the full one (R112). -/
inductive Disp (w : Nat) where
  | none
  | d8 (d : BitVec 8)
  | full (d : BitVec w)
deriving DecidableEq, Repr

/-- The base of a 16-bit address form, in the order of R/M (R112). -/
inductive Base16 where
  | bxsi | bxdi | bpsi | bpdi | si | di | bp | bx
deriving DecidableEq, Repr

/-- A memory operand: MOD, R/M, SIB and displacement as R112 reads them. -/
inductive MemOperand where
  /-- 32-bit, MOD 00, R/M 101. -/
  | disp32 (d : BitVec 32)
  /-- 32-bit, R/M a register other than ESP. -/
  | base32 (r : Gpr) (d : Disp 32)
  /-- 32-bit, R/M 100: SIB with a base register; index none is index = 100. -/
  | sib (ss : BitVec 2) (index : Option Gpr) (base : Gpr) (d : Disp 32)
  /-- 32-bit, MOD 00, R/M 100, SIB base 101: no base register, disp32. -/
  | sibNoBase (ss : BitVec 2) (index : Option Gpr) (d : BitVec 32)
  /-- 16-bit, MOD 00, R/M 110. -/
  | disp16 (d : BitVec 16)
  /-- 16-bit with base and index registers. -/
  | base16 (b : Base16) (d : Disp 16)
deriving DecidableEq, Repr

/-- Why a byte string is not an instruction (R105, R107, R110). -/
inductive DecodeError where
  /-- The string ends inside the instruction. -/
  | truncated
  /-- F0h, F2h or F3h before the opcode (R105, spec/93_implementation_defined.md U19). -/
  | lockOrRepeat
  /-- The byte after the prefix bytes is neither an ESC byte D8h to DFh nor 9Bh. -/
  | notNpx
  /-- An ESC encoding the two maps mark reserved (R110). -/
  | reserved
deriving DecidableEq, Repr

/-- One constructor per row of spec/opcode_table.json. `p` are the bytes before the opcode, `m` the memory operand,
`i` the ST(i) field. -/
inductive Instr where
  /-- FADD m32r: D8 /0 (R266). -/
  | faddM32r (p : List PrefixByte) (m : MemOperand)
  /-- FMUL m32r: D8 /1 (R275). -/
  | fmulM32r (p : List PrefixByte) (m : MemOperand)
  /-- FCOM m32r: D8 /2 (R231). -/
  | fcomM32r (p : List PrefixByte) (m : MemOperand)
  /-- FCOMP m32r: D8 /3 (R234). -/
  | fcompM32r (p : List PrefixByte) (m : MemOperand)
  /-- FSUB m32r: D8 /4 (R269). -/
  | fsubM32r (p : List PrefixByte) (m : MemOperand)
  /-- FSUBR m32r: D8 /5 (R272). -/
  | fsubrM32r (p : List PrefixByte) (m : MemOperand)
  /-- FDIV m32r: D8 /6 (R278). -/
  | fdivM32r (p : List PrefixByte) (m : MemOperand)
  /-- FDIVR m32r: D8 /7 (R281). -/
  | fdivrM32r (p : List PrefixByte) (m : MemOperand)
  /-- FIADD m32i: DA /0 (R268). -/
  | fiaddM32i (p : List PrefixByte) (m : MemOperand)
  /-- FIMUL m32i: DA /1 (R277). -/
  | fimulM32i (p : List PrefixByte) (m : MemOperand)
  /-- FICOM m32i: DA /2 (R239). -/
  | ficomM32i (p : List PrefixByte) (m : MemOperand)
  /-- FICOMP m32i: DA /3 (R241). -/
  | ficompM32i (p : List PrefixByte) (m : MemOperand)
  /-- FISUB m32i: DA /4 (R271). -/
  | fisubM32i (p : List PrefixByte) (m : MemOperand)
  /-- FISUBR m32i: DA /5 (R274). -/
  | fisubrM32i (p : List PrefixByte) (m : MemOperand)
  /-- FIDIV m32i: DA /6 (R280). -/
  | fidivM32i (p : List PrefixByte) (m : MemOperand)
  /-- FIDIVR m32i: DA /7 (R283). -/
  | fidivrM32i (p : List PrefixByte) (m : MemOperand)
  /-- FADD m64r: DC /0 (R266). -/
  | faddM64r (p : List PrefixByte) (m : MemOperand)
  /-- FMUL m64r: DC /1 (R275). -/
  | fmulM64r (p : List PrefixByte) (m : MemOperand)
  /-- FCOM m64r: DC /2 (R232). -/
  | fcomM64r (p : List PrefixByte) (m : MemOperand)
  /-- FCOMP m64r: DC /3 (R235). -/
  | fcompM64r (p : List PrefixByte) (m : MemOperand)
  /-- FSUB m64r: DC /4 (R269). -/
  | fsubM64r (p : List PrefixByte) (m : MemOperand)
  /-- FSUBR m64r: DC /5 (R272). -/
  | fsubrM64r (p : List PrefixByte) (m : MemOperand)
  /-- FDIV m64r: DC /6 (R278). -/
  | fdivM64r (p : List PrefixByte) (m : MemOperand)
  /-- FDIVR m64r: DC /7 (R281). -/
  | fdivrM64r (p : List PrefixByte) (m : MemOperand)
  /-- FIADD m16i: DE /0 (R268). -/
  | fiaddM16i (p : List PrefixByte) (m : MemOperand)
  /-- FIMUL m16i: DE /1 (R277). -/
  | fimulM16i (p : List PrefixByte) (m : MemOperand)
  /-- FICOM m16i: DE /2 (R238). -/
  | ficomM16i (p : List PrefixByte) (m : MemOperand)
  /-- FICOMP m16i: DE /3 (R240). -/
  | ficompM16i (p : List PrefixByte) (m : MemOperand)
  /-- FISUB m16i: DE /4 (R271). -/
  | fisubM16i (p : List PrefixByte) (m : MemOperand)
  /-- FISUBR m16i: DE /5 (R274). -/
  | fisubrM16i (p : List PrefixByte) (m : MemOperand)
  /-- FIDIV m16i: DE /6 (R280). -/
  | fidivM16i (p : List PrefixByte) (m : MemOperand)
  /-- FIDIVR m16i: DE /7 (R283). -/
  | fidivrM16i (p : List PrefixByte) (m : MemOperand)
  /-- FLD m32r: D9 /0 (R201). -/
  | fldM32r (p : List PrefixByte) (m : MemOperand)
  /-- FST m32r: D9 /2 (R209). -/
  | fstM32r (p : List PrefixByte) (m : MemOperand)
  /-- FSTP m32r: D9 /3 (R213). -/
  | fstpM32r (p : List PrefixByte) (m : MemOperand)
  /-- FLDENV env: D9 /4 (R328). -/
  | fldenv (p : List PrefixByte) (m : MemOperand)
  /-- FLDCW m16: D9 /5 (R324). -/
  | fldcw (p : List PrefixByte) (m : MemOperand)
  /-- FSTENV env: D9 /6 (R327). -/
  | fstenv (p : List PrefixByte) (m : MemOperand)
  /-- FSTCW m16: D9 /7 (R325). -/
  | fstcw (p : List PrefixByte) (m : MemOperand)
  /-- FILD m32i: DB /0 (R206). -/
  | fildM32i (p : List PrefixByte) (m : MemOperand)
  /-- FIST m32i: DB /2 (R217). -/
  | fistM32i (p : List PrefixByte) (m : MemOperand)
  /-- FISTP m32i: DB /3 (R219). -/
  | fistpM32i (p : List PrefixByte) (m : MemOperand)
  /-- FLD m80r: DB /5 (R203). -/
  | fldM80r (p : List PrefixByte) (m : MemOperand)
  /-- FSTP m80r: DB /7 (R212). -/
  | fstpM80r (p : List PrefixByte) (m : MemOperand)
  /-- FLD m64r: DD /0 (R202). -/
  | fldM64r (p : List PrefixByte) (m : MemOperand)
  /-- FST m64r: DD /2 (R210). -/
  | fstM64r (p : List PrefixByte) (m : MemOperand)
  /-- FSTP m64r: DD /3 (R214). -/
  | fstpM64r (p : List PrefixByte) (m : MemOperand)
  /-- FRSTOR state: DD /4 (R330). -/
  | frstor (p : List PrefixByte) (m : MemOperand)
  /-- FSAVE state: DD /6 (R329). -/
  | fsave (p : List PrefixByte) (m : MemOperand)
  /-- FSTSW m16: DD /7 (R323). -/
  | fstswM16 (p : List PrefixByte) (m : MemOperand)
  /-- FILD m16i: DF /0 (R205). -/
  | fildM16i (p : List PrefixByte) (m : MemOperand)
  /-- FIST m16i: DF /2 (R216). -/
  | fistM16i (p : List PrefixByte) (m : MemOperand)
  /-- FISTP m16i: DF /3 (R218). -/
  | fistpM16i (p : List PrefixByte) (m : MemOperand)
  /-- FBLD m80d: DF /4 (R208). -/
  | fbld (p : List PrefixByte) (m : MemOperand)
  /-- FILD m64i: DF /5 (R207). -/
  | fildM64i (p : List PrefixByte) (m : MemOperand)
  /-- FBSTP m80d: DF /6 (R221). -/
  | fbstp (p : List PrefixByte) (m : MemOperand)
  /-- FISTP m64i: DF /7 (R220). -/
  | fistpM64i (p : List PrefixByte) (m : MemOperand)
  /-- FADD ST, ST(i): D8 C0+i (R266). -/
  | faddStSti (p : List PrefixByte) (i : Idx)
  /-- FMUL ST, ST(i): D8 C8+i (R275). -/
  | fmulStSti (p : List PrefixByte) (i : Idx)
  /-- FCOM ST(i): D8 D0+i (R233). -/
  | fcomSti (p : List PrefixByte) (i : Idx)
  /-- FCOMP ST(i): D8 D8+i (R236). -/
  | fcompSti (p : List PrefixByte) (i : Idx)
  /-- FSUB ST, ST(i): D8 E0+i (R269). -/
  | fsubStSti (p : List PrefixByte) (i : Idx)
  /-- FSUBR ST, ST(i): D8 E8+i (R272). -/
  | fsubrStSti (p : List PrefixByte) (i : Idx)
  /-- FDIV ST, ST(i): D8 F0+i (R278). -/
  | fdivStSti (p : List PrefixByte) (i : Idx)
  /-- FDIVR ST, ST(i): D8 F8+i (R281). -/
  | fdivrStSti (p : List PrefixByte) (i : Idx)
  /-- FLD ST(i): D9 C0+i (R204). -/
  | fldSti (p : List PrefixByte) (i : Idx)
  /-- FXCH ST(i): D9 C8+i (R222). -/
  | fxch (p : List PrefixByte) (i : Idx)
  /-- FNOP: D9 D0 (R335). -/
  | fnop (p : List PrefixByte)
  /-- FCHS: D9 E0 (R291). -/
  | fchs (p : List PrefixByte)
  /-- FABS: D9 E1 (R290). -/
  | fabs (p : List PrefixByte)
  /-- FTST: D9 E4 (R242). -/
  | ftst (p : List PrefixByte)
  /-- FXAM: D9 E5 (R246). -/
  | fxam (p : List PrefixByte)
  /-- FLD1: D9 E8 (R252). -/
  | fld1 (p : List PrefixByte)
  /-- FLDL2T: D9 E9 (R254). -/
  | fldl2t (p : List PrefixByte)
  /-- FLDL2E: D9 EA (R255). -/
  | fldl2e (p : List PrefixByte)
  /-- FLDPI: D9 EB (R253). -/
  | fldpi (p : List PrefixByte)
  /-- FLDLG2: D9 EC (R256). -/
  | fldlg2 (p : List PrefixByte)
  /-- FLDLN2: D9 ED (R257). -/
  | fldln2 (p : List PrefixByte)
  /-- FLDZ: D9 EE (R251). -/
  | fldz (p : List PrefixByte)
  /-- F2XM1: D9 F0 (R306). -/
  | f2xm1 (p : List PrefixByte)
  /-- FYL2X: D9 F1 (R307). -/
  | fyl2x (p : List PrefixByte)
  /-- FPTAN: D9 F2 (R302). -/
  | fptan (p : List PrefixByte)
  /-- FPATAN: D9 F3 (R303). -/
  | fpatan (p : List PrefixByte)
  /-- FXTRACT: D9 F4 (R289). -/
  | fxtract (p : List PrefixByte)
  /-- FPREM1: D9 F5 (R287). -/
  | fprem1 (p : List PrefixByte)
  /-- FDECSTP: D9 F6 (R333). -/
  | fdecstp (p : List PrefixByte)
  /-- FINCSTP: D9 F7 (R332). -/
  | fincstp (p : List PrefixByte)
  /-- FPREM: D9 F8 (R286). -/
  | fprem (p : List PrefixByte)
  /-- FYL2XP1: D9 F9 (R308). -/
  | fyl2xp1 (p : List PrefixByte)
  /-- FSQRT: D9 FA (R284). -/
  | fsqrt (p : List PrefixByte)
  /-- FSINCOS: D9 FB (R305). -/
  | fsincos (p : List PrefixByte)
  /-- FRNDINT: D9 FC (R288). -/
  | frndint (p : List PrefixByte)
  /-- FSCALE: D9 FD (R285). -/
  | fscale (p : List PrefixByte)
  /-- FSIN: D9 FE (R304). -/
  | fsin (p : List PrefixByte)
  /-- FCOS: D9 FF (R301). -/
  | fcos (p : List PrefixByte)
  /-- FUCOMPP: DA E9 (R245). -/
  | fucompp (p : List PrefixByte)
  /-- FCLEX: DB E2 (R326). -/
  | fclex (p : List PrefixByte)
  /-- FINIT: DB E3 (R321). -/
  | finit (p : List PrefixByte)
  /-- FADD ST(i), ST: DC C0+i (R266). -/
  | faddStiSt (p : List PrefixByte) (i : Idx)
  /-- FMUL ST(i), ST: DC C8+i (R275). -/
  | fmulStiSt (p : List PrefixByte) (i : Idx)
  /-- FSUBR ST(i), ST: DC E0+i (R272). -/
  | fsubrStiSt (p : List PrefixByte) (i : Idx)
  /-- FSUB ST(i), ST: DC E8+i (R269). -/
  | fsubStiSt (p : List PrefixByte) (i : Idx)
  /-- FDIVR ST(i), ST: DC F0+i (R281). -/
  | fdivrStiSt (p : List PrefixByte) (i : Idx)
  /-- FDIV ST(i), ST: DC F8+i (R278). -/
  | fdivStiSt (p : List PrefixByte) (i : Idx)
  /-- FFREE ST(i): DD C0+i (R334). -/
  | ffree (p : List PrefixByte) (i : Idx)
  /-- FST ST(i): DD D0+i (R211). -/
  | fstSti (p : List PrefixByte) (i : Idx)
  /-- FSTP ST(i): DD D8+i (R215). -/
  | fstpSti (p : List PrefixByte) (i : Idx)
  /-- FUCOM ST(i): DD E0+i (R243). -/
  | fucom (p : List PrefixByte) (i : Idx)
  /-- FUCOMP ST(i): DD E8+i (R244). -/
  | fucomp (p : List PrefixByte) (i : Idx)
  /-- FADDP ST(i), ST: DE C0+i (R267). -/
  | faddp (p : List PrefixByte) (i : Idx)
  /-- FMULP ST(i), ST: DE C8+i (R276). -/
  | fmulp (p : List PrefixByte) (i : Idx)
  /-- FCOMPP: DE D9 (R237). -/
  | fcompp (p : List PrefixByte)
  /-- FSUBRP ST(i), ST: DE E0+i (R273). -/
  | fsubrp (p : List PrefixByte) (i : Idx)
  /-- FSUBP ST(i), ST: DE E8+i (R270). -/
  | fsubp (p : List PrefixByte) (i : Idx)
  /-- FDIVRP ST(i), ST: DE F0+i (R282). -/
  | fdivrp (p : List PrefixByte) (i : Idx)
  /-- FDIVP ST(i), ST: DE F8+i (R279). -/
  | fdivp (p : List PrefixByte) (i : Idx)
  /-- FSTSW AX: DF E0 (R322). -/
  | fstswAx (p : List PrefixByte)
  /-- WAIT: 9B (R336). -/
  | wait (p : List PrefixByte)
  /-- FENI: DB E0 (R337). -/
  | feni (p : List PrefixByte)
  /-- FDISI: DB E1 (R337). -/
  | fdisi (p : List PrefixByte)
  /-- FSETPM: DB E4 (R337). -/
  | fsetpm (p : List PrefixByte)
deriving DecidableEq, Repr

/-- The shape of an instruction's bytes (R102, R104): the bytes before the opcode, then the low three bits of the
first opcode byte (`row`), bits 5-3 of the second (`op`) and an operand; or WAIT. -/
inductive Layout where
  /-- MOD other than 11. -/
  | mem (p : List PrefixByte) (row op : BitVec 3) (m : MemOperand)
  /-- MOD = 11; `low` is the ST(i) field or the three fixed bits. -/
  | reg (p : List PrefixByte) (row op low : BitVec 3)
  /-- The one byte 9Bh (R106). -/
  | wait (p : List PrefixByte)
deriving DecidableEq, Repr

end Sys2Proof
end

