-- ==== Sys2Proof/Decode.lean ====
section
/-! DEFINITION. The decoder, total on any bytes, and the encoder: spec/30_encoding.md R100 to R114 and the maps R108
(memory forms) and R109 (register forms). -/

namespace Sys2Proof

/-- The address size in effect for an instruction: the default, toggled by a byte 67h (R105). -/
def addrSize32 (default32 : Bool) (p : List PrefixByte) : Bool :=
  if PrefixByte.adSize ∈ p then !default32 else default32

/-- The operand size in effect for an instruction: the default, toggled by a byte 66h (R105). -/
def operandSize32 (default32 : Bool) (p : List PrefixByte) : Bool :=
  if PrefixByte.opSize ∈ p then !default32 else default32

/-! The decoder. -/

/-- The bytes that may stand before the opcode (R105). -/
def prefixByte (b : Byte) : Option PrefixByte :=
  match b.toNat with
  | 0x26 => some (.seg .es)
  | 0x2E => some (.seg .cs)
  | 0x36 => some (.seg .ss)
  | 0x3E => some (.seg .ds)
  | 0x64 => some (.seg .fs)
  | 0x65 => some (.seg .gs)
  | 0x66 => some .opSize
  | 0x67 => some .adSize
  | _ => none

/-- The bytes before the opcode, and the rest. Any number of them in any order is taken (log 22). -/
def takePrefixes : List Byte → List PrefixByte × List Byte
  | [] => ([], [])
  | b :: bs =>
    match prefixByte b with
    | some q => (q :: (takePrefixes bs).1, (takePrefixes bs).2)
    | none => ([], b :: bs)

/-- `reg32` of R112. -/
def gprOfNum (n : BitVec 3) : Gpr :=
  match n.toNat with
  | 0 => .eax
  | 1 => .ecx
  | 2 => .edx
  | 3 => .ebx
  | 4 => .esp
  | 5 => .ebp
  | 6 => .esi
  | _ => .edi

/-- The R/M column of the 16-bit forms (R112). -/
def base16OfNum (n : BitVec 3) : Base16 :=
  match n.toNat with
  | 0 => .bxsi
  | 1 => .bxdi
  | 2 => .bpsi
  | 3 => .bpdi
  | 4 => .si
  | 5 => .di
  | 6 => .bp
  | _ => .bx

/-- Two bytes, the lower address first (R114). -/
def takeWord : List Byte → Option (BitVec 16 × List Byte)
  | b0 :: b1 :: bs => some (b1 ++ b0, bs)
  | _ => none

/-- Four bytes, the lowest address first (R114). -/
def takeDWord : List Byte → Option (BitVec 32 × List Byte)
  | b0 :: b1 :: b2 :: b3 :: bs => some (b3 ++ b2 ++ b1 ++ b0, bs)
  | _ => none

/-- The displacement of a 32-bit form by MOD, 0, 1 or 2 (R112). -/
def takeDisp32 (mod : BitVec 2) (bs : List Byte) : Option (Disp 32 × List Byte) :=
  if mod = 0 then some (.none, bs)
  else if mod = 1 then
    match bs with
    | [] => none
    | b :: r => some (.d8 b, r)
  else
    match takeDWord bs with
    | none => none
    | some (d, r) => some (.full d, r)

/-- The displacement of a 16-bit form by MOD (R112). -/
def takeDisp16 (mod : BitVec 2) (bs : List Byte) : Option (Disp 16 × List Byte) :=
  if mod = 0 then some (.none, bs)
  else if mod = 1 then
    match bs with
    | [] => none
    | b :: r => some (.d8 b, r)
  else
    match takeWord bs with
    | none => none
    | some (d, r) => some (.full d, r)

/-- The index of a SIB byte: 100 is no index (R112). -/
def indexOfNum (n : BitVec 3) : Option Gpr :=
  if n = 4 then none else some (gprOfNum n)

/-- The SIB form of a 32-bit memory operand: the SIB byte and what follows it (R112). -/
def takeSib (mod : BitVec 2) : List Byte → Option (MemOperand × List Byte)
  | [] => none
  | s :: bs =>
    if mod = 0 ∧ s.extractLsb' 0 3 = 5 then
      match takeDWord bs with
      | none => none
      | some (d, r) => some (.sibNoBase (s.extractLsb' 6 2) (indexOfNum (s.extractLsb' 3 3)) d, r)
    else
      match takeDisp32 mod bs with
      | none => none
      | some (d, r) =>
        some (.sib (s.extractLsb' 6 2) (indexOfNum (s.extractLsb' 3 3)) (gprOfNum (s.extractLsb' 0 3)) d, r)

/-- The memory operand that MOD, R/M and the bytes after them give under an address size (R112). -/
def takeOperand (a32 : Bool) (mod : BitVec 2) (rm : BitVec 3) (bs : List Byte) : Option (MemOperand × List Byte) :=
  if a32 then
    if rm = 4 then takeSib mod bs
    else if mod = 0 ∧ rm = 5 then
      match takeDWord bs with
      | none => none
      | some (d, r) => some (.disp32 d, r)
    else
      match takeDisp32 mod bs with
      | none => none
      | some (d, r) => some (.base32 (gprOfNum rm) d, r)
  else if mod = 0 ∧ rm = 6 then
    match takeWord bs with
    | none => none
    | some (d, r) => some (.disp16 d, r)
  else
    match takeDisp16 mod bs with
    | none => none
    | some (d, r) => some (.base16 (base16OfNum rm) d, r)

/-- The memory-form map R108: `row` is b0[2:0], `op` is b1[5:3]; none is a reserved cell (R110). -/
def memRow (row op : BitVec 3) (p : List PrefixByte) (m : MemOperand) : Option Instr :=
  match row.toNat, op.toNat with
  | 0, 0 => some (.faddM32r p m)
  | 0, 1 => some (.fmulM32r p m)
  | 0, 2 => some (.fcomM32r p m)
  | 0, 3 => some (.fcompM32r p m)
  | 0, 4 => some (.fsubM32r p m)
  | 0, 5 => some (.fsubrM32r p m)
  | 0, 6 => some (.fdivM32r p m)
  | 0, 7 => some (.fdivrM32r p m)
  | 1, 0 => some (.fldM32r p m)
  | 1, 2 => some (.fstM32r p m)
  | 1, 3 => some (.fstpM32r p m)
  | 1, 4 => some (.fldenv p m)
  | 1, 5 => some (.fldcw p m)
  | 1, 6 => some (.fstenv p m)
  | 1, 7 => some (.fstcw p m)
  | 2, 0 => some (.fiaddM32i p m)
  | 2, 1 => some (.fimulM32i p m)
  | 2, 2 => some (.ficomM32i p m)
  | 2, 3 => some (.ficompM32i p m)
  | 2, 4 => some (.fisubM32i p m)
  | 2, 5 => some (.fisubrM32i p m)
  | 2, 6 => some (.fidivM32i p m)
  | 2, 7 => some (.fidivrM32i p m)
  | 3, 0 => some (.fildM32i p m)
  | 3, 2 => some (.fistM32i p m)
  | 3, 3 => some (.fistpM32i p m)
  | 3, 5 => some (.fldM80r p m)
  | 3, 7 => some (.fstpM80r p m)
  | 4, 0 => some (.faddM64r p m)
  | 4, 1 => some (.fmulM64r p m)
  | 4, 2 => some (.fcomM64r p m)
  | 4, 3 => some (.fcompM64r p m)
  | 4, 4 => some (.fsubM64r p m)
  | 4, 5 => some (.fsubrM64r p m)
  | 4, 6 => some (.fdivM64r p m)
  | 4, 7 => some (.fdivrM64r p m)
  | 5, 0 => some (.fldM64r p m)
  | 5, 2 => some (.fstM64r p m)
  | 5, 3 => some (.fstpM64r p m)
  | 5, 4 => some (.frstor p m)
  | 5, 6 => some (.fsave p m)
  | 5, 7 => some (.fstswM16 p m)
  | 6, 0 => some (.fiaddM16i p m)
  | 6, 1 => some (.fimulM16i p m)
  | 6, 2 => some (.ficomM16i p m)
  | 6, 3 => some (.ficompM16i p m)
  | 6, 4 => some (.fisubM16i p m)
  | 6, 5 => some (.fisubrM16i p m)
  | 6, 6 => some (.fidivM16i p m)
  | 6, 7 => some (.fidivrM16i p m)
  | 7, 0 => some (.fildM16i p m)
  | 7, 2 => some (.fistM16i p m)
  | 7, 3 => some (.fistpM16i p m)
  | 7, 4 => some (.fbld p m)
  | 7, 5 => some (.fildM64i p m)
  | 7, 6 => some (.fbstp p m)
  | 7, 7 => some (.fistpM64i p m)
  | _, _ => none

/-- The register-form map R109: `low` is b1[2:0]; none is a reserved cell (R110). -/
def regRow (row op low : BitVec 3) (p : List PrefixByte) : Option Instr :=
  match row.toNat, op.toNat, low.toNat with
  | 0, 0, _ => some (.faddStSti p low)
  | 0, 1, _ => some (.fmulStSti p low)
  | 0, 2, _ => some (.fcomSti p low)
  | 0, 3, _ => some (.fcompSti p low)
  | 0, 4, _ => some (.fsubStSti p low)
  | 0, 5, _ => some (.fsubrStSti p low)
  | 0, 6, _ => some (.fdivStSti p low)
  | 0, 7, _ => some (.fdivrStSti p low)
  | 1, 0, _ => some (.fldSti p low)
  | 1, 1, _ => some (.fxch p low)
  | 1, 2, 0 => some (.fnop p)
  | 1, 4, 0 => some (.fchs p)
  | 1, 4, 1 => some (.fabs p)
  | 1, 4, 4 => some (.ftst p)
  | 1, 4, 5 => some (.fxam p)
  | 1, 5, 0 => some (.fld1 p)
  | 1, 5, 1 => some (.fldl2t p)
  | 1, 5, 2 => some (.fldl2e p)
  | 1, 5, 3 => some (.fldpi p)
  | 1, 5, 4 => some (.fldlg2 p)
  | 1, 5, 5 => some (.fldln2 p)
  | 1, 5, 6 => some (.fldz p)
  | 1, 6, 0 => some (.f2xm1 p)
  | 1, 6, 1 => some (.fyl2x p)
  | 1, 6, 2 => some (.fptan p)
  | 1, 6, 3 => some (.fpatan p)
  | 1, 6, 4 => some (.fxtract p)
  | 1, 6, 5 => some (.fprem1 p)
  | 1, 6, 6 => some (.fdecstp p)
  | 1, 6, 7 => some (.fincstp p)
  | 1, 7, 0 => some (.fprem p)
  | 1, 7, 1 => some (.fyl2xp1 p)
  | 1, 7, 2 => some (.fsqrt p)
  | 1, 7, 3 => some (.fsincos p)
  | 1, 7, 4 => some (.frndint p)
  | 1, 7, 5 => some (.fscale p)
  | 1, 7, 6 => some (.fsin p)
  | 1, 7, 7 => some (.fcos p)
  | 2, 5, 1 => some (.fucompp p)
  | 3, 4, 2 => some (.fclex p)
  | 3, 4, 3 => some (.finit p)
  | 3, 4, 0 => some (.feni p)
  | 3, 4, 1 => some (.fdisi p)
  | 3, 4, 4 => some (.fsetpm p)
  | 4, 0, _ => some (.faddStiSt p low)
  | 4, 1, _ => some (.fmulStiSt p low)
  | 4, 4, _ => some (.fsubrStiSt p low)
  | 4, 5, _ => some (.fsubStiSt p low)
  | 4, 6, _ => some (.fdivrStiSt p low)
  | 4, 7, _ => some (.fdivStiSt p low)
  | 5, 0, _ => some (.ffree p low)
  | 5, 2, _ => some (.fstSti p low)
  | 5, 3, _ => some (.fstpSti p low)
  | 5, 4, _ => some (.fucom p low)
  | 5, 5, _ => some (.fucomp p low)
  | 6, 0, _ => some (.faddp p low)
  | 6, 1, _ => some (.fmulp p low)
  | 6, 3, 1 => some (.fcompp p)
  | 6, 4, _ => some (.fsubrp p low)
  | 6, 5, _ => some (.fsubp p low)
  | 6, 6, _ => some (.fdivrp p low)
  | 6, 7, _ => some (.fdivp p low)
  | 7, 4, 0 => some (.fstswAx p)
  | _, _, _ => none

/-- The instruction after the first opcode byte (R107): MOD = 11 looks up R109, any other MOD R108. -/
def decodeEsc (a32 : Bool) (p : List PrefixByte) (row : BitVec 3) :
    List Byte → Except DecodeError (Instr × List Byte)
  | [] => .error .truncated
  | b1 :: bs =>
    if b1.extractLsb' 6 2 = 3 then
      match regRow row (b1.extractLsb' 3 3) (b1.extractLsb' 0 3) p with
      | none => .error .reserved
      | some i => .ok (i, bs)
    else
      match takeOperand a32 (b1.extractLsb' 6 2) (b1.extractLsb' 0 3) bs with
      | none =>
        if (memRow row (b1.extractLsb' 3 3) p (.disp16 0)).isNone then .error .reserved else .error .truncated
      | some (m, r) =>
        match memRow row (b1.extractLsb' 3 3) p m with
        | none => .error .reserved
        | some i => .ok (i, r)

/-- What follows the bytes before the opcode (R100, R105, R106). -/
def decodeOpcode (default32 : Bool) (p : List PrefixByte) : List Byte → Except DecodeError (Instr × List Byte)
  | [] => .error .truncated
  | b0 :: bs =>
    if b0 = 0x9B then .ok (.wait p, bs)
    else if b0 = 0xF0 ∨ b0 = 0xF2 ∨ b0 = 0xF3 then .error .lockOrRepeat
    else if b0.extractLsb' 3 5 = 0b11011 then decodeEsc (addrSize32 default32 p) p (b0.extractLsb' 0 3) bs
    else .error .notNpx

/-- The first instruction of a byte string under a default address size, and the bytes after it (R107). -/
def decode (default32 : Bool) (bs : List Byte) : Except DecodeError (Instr × List Byte) :=
  decodeOpcode default32 (takePrefixes bs).1 (takePrefixes bs).2

/-- The bytes of an n-bit table word: the first byte is the most significant, as R124 numbers b0 * 256 + b1. -/
def tableBytes (nbits w : Nat) : List Byte :=
  (List.range (nbits / 8)).map fun k => BitVec.ofNat 8 (w >>> (nbits - 8 * (k + 1)))

/-- The instruction the decoder reads from a table word, every byte after it 0, under the address size that reset
leaves, 16 bits (log 42). -/
def decodeTableWord (nbits w : Nat) : Option Instr :=
  match decode false (tableBytes nbits w ++ List.replicate 15 0) with
  | .ok (i, _) => some i
  | .error _ => none

/-! The encoder. -/

/-- Bytes of a displacement w bits wide (R104). -/
def Disp.length {w : Nat} : Disp w → Nat
  | .none => 0
  | .d8 _ => 1
  | .full _ => w / 8

/-- n_sib + n_disp of a memory operand (R104). -/
def MemOperand.extra : MemOperand → Nat
  | .disp32 _ => 4
  | .base32 _ d => d.length
  | .sib _ _ _ d => 1 + d.length
  | .sibNoBase _ _ _ => 5
  | .disp16 _ => 2
  | .base16 _ d => d.length

/-- Total bytes (R104, R106). -/
def Layout.length : Layout → Nat
  | .mem p _ _ m => p.length + 2 + m.extra
  | .reg p _ _ _ => p.length + 2
  | .wait p => p.length + 1

/-- The encoding of each instruction: its row of R108 or R109. -/
def Instr.layout : Instr → Layout
  | .faddM32r p m => .mem p 0 0 m
  | .fmulM32r p m => .mem p 0 1 m
  | .fcomM32r p m => .mem p 0 2 m
  | .fcompM32r p m => .mem p 0 3 m
  | .fsubM32r p m => .mem p 0 4 m
  | .fsubrM32r p m => .mem p 0 5 m
  | .fdivM32r p m => .mem p 0 6 m
  | .fdivrM32r p m => .mem p 0 7 m
  | .fiaddM32i p m => .mem p 2 0 m
  | .fimulM32i p m => .mem p 2 1 m
  | .ficomM32i p m => .mem p 2 2 m
  | .ficompM32i p m => .mem p 2 3 m
  | .fisubM32i p m => .mem p 2 4 m
  | .fisubrM32i p m => .mem p 2 5 m
  | .fidivM32i p m => .mem p 2 6 m
  | .fidivrM32i p m => .mem p 2 7 m
  | .faddM64r p m => .mem p 4 0 m
  | .fmulM64r p m => .mem p 4 1 m
  | .fcomM64r p m => .mem p 4 2 m
  | .fcompM64r p m => .mem p 4 3 m
  | .fsubM64r p m => .mem p 4 4 m
  | .fsubrM64r p m => .mem p 4 5 m
  | .fdivM64r p m => .mem p 4 6 m
  | .fdivrM64r p m => .mem p 4 7 m
  | .fiaddM16i p m => .mem p 6 0 m
  | .fimulM16i p m => .mem p 6 1 m
  | .ficomM16i p m => .mem p 6 2 m
  | .ficompM16i p m => .mem p 6 3 m
  | .fisubM16i p m => .mem p 6 4 m
  | .fisubrM16i p m => .mem p 6 5 m
  | .fidivM16i p m => .mem p 6 6 m
  | .fidivrM16i p m => .mem p 6 7 m
  | .fldM32r p m => .mem p 1 0 m
  | .fstM32r p m => .mem p 1 2 m
  | .fstpM32r p m => .mem p 1 3 m
  | .fldenv p m => .mem p 1 4 m
  | .fldcw p m => .mem p 1 5 m
  | .fstenv p m => .mem p 1 6 m
  | .fstcw p m => .mem p 1 7 m
  | .fildM32i p m => .mem p 3 0 m
  | .fistM32i p m => .mem p 3 2 m
  | .fistpM32i p m => .mem p 3 3 m
  | .fldM80r p m => .mem p 3 5 m
  | .fstpM80r p m => .mem p 3 7 m
  | .fldM64r p m => .mem p 5 0 m
  | .fstM64r p m => .mem p 5 2 m
  | .fstpM64r p m => .mem p 5 3 m
  | .frstor p m => .mem p 5 4 m
  | .fsave p m => .mem p 5 6 m
  | .fstswM16 p m => .mem p 5 7 m
  | .fildM16i p m => .mem p 7 0 m
  | .fistM16i p m => .mem p 7 2 m
  | .fistpM16i p m => .mem p 7 3 m
  | .fbld p m => .mem p 7 4 m
  | .fildM64i p m => .mem p 7 5 m
  | .fbstp p m => .mem p 7 6 m
  | .fistpM64i p m => .mem p 7 7 m
  | .faddStSti p i => .reg p 0 0 i
  | .fmulStSti p i => .reg p 0 1 i
  | .fcomSti p i => .reg p 0 2 i
  | .fcompSti p i => .reg p 0 3 i
  | .fsubStSti p i => .reg p 0 4 i
  | .fsubrStSti p i => .reg p 0 5 i
  | .fdivStSti p i => .reg p 0 6 i
  | .fdivrStSti p i => .reg p 0 7 i
  | .fldSti p i => .reg p 1 0 i
  | .fxch p i => .reg p 1 1 i
  | .fnop p => .reg p 1 2 0
  | .fchs p => .reg p 1 4 0
  | .fabs p => .reg p 1 4 1
  | .ftst p => .reg p 1 4 4
  | .fxam p => .reg p 1 4 5
  | .fld1 p => .reg p 1 5 0
  | .fldl2t p => .reg p 1 5 1
  | .fldl2e p => .reg p 1 5 2
  | .fldpi p => .reg p 1 5 3
  | .fldlg2 p => .reg p 1 5 4
  | .fldln2 p => .reg p 1 5 5
  | .fldz p => .reg p 1 5 6
  | .f2xm1 p => .reg p 1 6 0
  | .fyl2x p => .reg p 1 6 1
  | .fptan p => .reg p 1 6 2
  | .fpatan p => .reg p 1 6 3
  | .fxtract p => .reg p 1 6 4
  | .fprem1 p => .reg p 1 6 5
  | .fdecstp p => .reg p 1 6 6
  | .fincstp p => .reg p 1 6 7
  | .fprem p => .reg p 1 7 0
  | .fyl2xp1 p => .reg p 1 7 1
  | .fsqrt p => .reg p 1 7 2
  | .fsincos p => .reg p 1 7 3
  | .frndint p => .reg p 1 7 4
  | .fscale p => .reg p 1 7 5
  | .fsin p => .reg p 1 7 6
  | .fcos p => .reg p 1 7 7
  | .fucompp p => .reg p 2 5 1
  | .fclex p => .reg p 3 4 2
  | .finit p => .reg p 3 4 3
  | .faddStiSt p i => .reg p 4 0 i
  | .fmulStiSt p i => .reg p 4 1 i
  | .fsubrStiSt p i => .reg p 4 4 i
  | .fsubStiSt p i => .reg p 4 5 i
  | .fdivrStiSt p i => .reg p 4 6 i
  | .fdivStiSt p i => .reg p 4 7 i
  | .ffree p i => .reg p 5 0 i
  | .fstSti p i => .reg p 5 2 i
  | .fstpSti p i => .reg p 5 3 i
  | .fucom p i => .reg p 5 4 i
  | .fucomp p i => .reg p 5 5 i
  | .faddp p i => .reg p 6 0 i
  | .fmulp p i => .reg p 6 1 i
  | .fcompp p => .reg p 6 3 1
  | .fsubrp p i => .reg p 6 4 i
  | .fsubp p i => .reg p 6 5 i
  | .fdivrp p i => .reg p 6 6 i
  | .fdivp p i => .reg p 6 7 i
  | .fstswAx p => .reg p 7 4 0
  | .wait p => .wait p
  | .feni p => .reg p 3 4 0
  | .fdisi p => .reg p 3 4 1
  | .fsetpm p => .reg p 3 4 4

/-- The number of bytes of the instruction, prefix bytes included (R24, R104). -/
def Instr.length (i : Instr) : Nat := i.layout.length


/-- The byte of R105. -/
def encodePrefix : PrefixByte → Byte
  | .seg .es => 0x26
  | .seg .cs => 0x2E
  | .seg .ss => 0x36
  | .seg .ds => 0x3E
  | .seg .fs => 0x64
  | .seg .gs => 0x65
  | .opSize => 0x66
  | .adSize => 0x67

/-- The number of a register in R/M, index and base fields (R112). -/
def gprNum : Gpr → BitVec 3
  | .eax => 0
  | .ecx => 1
  | .edx => 2
  | .ebx => 3
  | .esp => 4
  | .ebp => 5
  | .esi => 6
  | .edi => 7

/-- R/M of a 16-bit form (R112). -/
def base16Num : Base16 → BitVec 3
  | .bxsi => 0
  | .bxdi => 1
  | .bpsi => 2
  | .bpdi => 3
  | .si => 4
  | .di => 5
  | .bp => 6
  | .bx => 7

/-- A word, the lower byte first (R114). -/
def wordBytes (d : BitVec 16) : List Byte := [d.extractLsb' 0 8, d.extractLsb' 8 8]

/-- A doubleword, the lowest byte first (R114). -/
def dwordBytes (d : BitVec 32) : List Byte :=
  [d.extractLsb' 0 8, d.extractLsb' 8 8, d.extractLsb' 16 8, d.extractLsb' 24 8]

/-- MOD of a form with a base (R112). -/
def Disp.mod {w : Nat} : Disp w → BitVec 2
  | .none => 0
  | .d8 _ => 1
  | .full _ => 2

/-- The displacement bytes of a 32-bit form. -/
def disp32Bytes : Disp 32 → List Byte
  | .none => []
  | .d8 b => [b]
  | .full d => dwordBytes d

/-- The displacement bytes of a 16-bit form. -/
def disp16Bytes : Disp 16 → List Byte
  | .none => []
  | .d8 b => [b]
  | .full d => wordBytes d

/-- The index field of a SIB byte (R112). -/
def indexNum : Option Gpr → BitVec 3
  | none => 4
  | some r => gprNum r

/-- MOD, R/M and the SIB and displacement bytes of a memory operand (R112). -/
def encodeOperand : MemOperand → BitVec 2 × BitVec 3 × List Byte
  | .disp32 d => (0, 5, dwordBytes d)
  | .base32 r d => (d.mod, gprNum r, disp32Bytes d)
  | .sib ss index base d => (d.mod, 4, (ss ++ indexNum index ++ gprNum base : BitVec 8) :: disp32Bytes d)
  | .sibNoBase ss index d => (0, 4, (ss ++ indexNum index ++ (5 : BitVec 3) : BitVec 8) :: dwordBytes d)
  | .disp16 d => (0, 6, wordBytes d)
  | .base16 b d => (d.mod, base16Num b, disp16Bytes d)

/-- The first opcode byte of a row: 11011 and its low three bits (R101). -/
def escByte (row : BitVec 3) : Byte := ((0b11011 : BitVec 5) ++ row : BitVec 8)

/-- The second opcode byte of an instruction: MOD, bits 5-3, and R/M or ST(i) (R101); 0 for WAIT. -/
def Layout.opcode2 : Layout → Byte
  | .mem _ _ op m => ((encodeOperand m).1 ++ op ++ (encodeOperand m).2.1 : BitVec 8)
  | .reg _ _ op low => ((3 : BitVec 2) ++ op ++ low : BitVec 8)
  | .wait _ => 0

/-- The bytes of a layout (R100, R101, R106). -/
def Layout.encode (l : Layout) : List Byte :=
  match l with
  | .mem p row _ m => p.map encodePrefix ++ escByte row :: l.opcode2 :: (encodeOperand m).2.2
  | .reg p row _ _ => p.map encodePrefix ++ [escByte row, l.opcode2]
  | .wait p => p.map encodePrefix ++ [0x9B]

/-- The bytes of an instruction, the one at the lowest address first. -/
def encode (i : Instr) : List Byte := i.layout.encode

/-- FOP of an instruction: op16[10:0] = b0[2:0] * 256 + b1 (R119); 0 for WAIT, which keeps none. -/
def Instr.fop (i : Instr) : BitVec 11 :=
  match i.layout with
  | .mem p row op m => (row ++ (Layout.mem p row op m).opcode2 : BitVec 11)
  | .reg p row op low => (row ++ (Layout.reg p row op low).opcode2 : BitVec 11)
  | .wait _ => 0

/-- The bytes before the opcode of an instruction. -/
def Instr.prefixes (i : Instr) : List PrefixByte :=
  match i.layout with
  | .mem p _ _ _ => p
  | .reg p _ _ _ => p
  | .wait p => p

end Sys2Proof
end

