-- ==== Sys2Proof/WellFormed.lean ====
section
/-! DEFINITION. Which terms of Instr are instructions: those that some byte string stands for under a given default
address size (spec/30_encoding.md R104, R105, R112). -/

namespace Sys2Proof

/-- A form of the address size, and of the table of R112: R/M = 100 is no register, MOD = 00 with R/M or base 101 (or
R/M 110 in the 16-bit forms) is no register, index 100 is no register. -/
def MemOperand.wellFormed (a32 : Bool) : MemOperand → Bool
  | .disp32 _ => a32
  | .base32 r d => a32 && (r != .esp) && (r != .ebp || d != .none)
  | .sib _ index base d => a32 && (index != some .esp) && (base != .ebp || d != .none)
  | .sibNoBase _ index _ => a32 && (index != some .esp)
  | .disp16 _ => !a32
  | .base16 b d => !a32 && (b != .bp || d != .none)

/-- At most fifteen bytes (log 22), and a memory operand of the address size in effect. -/
def Layout.wellFormed (default32 : Bool) (l : Layout) : Bool :=
  (l.length ≤ 15) &&
  match l with
  | .mem p _ _ m => m.wellFormed (addrSize32 default32 p)
  | .reg _ _ _ _ => true
  | .wait _ => true

/-- The instruction stands for a byte string when the default address size is `default32`. -/
def Instr.wellFormed (default32 : Bool) (i : Instr) : Bool := i.layout.wellFormed default32

end Sys2Proof
end

