-- ==== Sys2Proof/Machine/State.lean ====
section
/-! DEFINITION. The state of the machine: the NPX, the thin host CPU, memory and the bus unit; its values after reset;
the ways a step can stop. spec/10_state.md R20 to R61; INVENTORY.md lists every field with its rule. -/

namespace Sys2Proof.Machine

/-- A tag of the tag word: 00 valid, 01 zero, 10 special, 11 empty (R25). -/
inductive Tag where
  | valid | zero | special | empty
deriving DecidableEq, Repr

/-- The control word (R38). Bits 15-13, 7 and 6 hold nothing (R41, log 12). -/
structure ControlWord where
  /-- Bit 0, invalid operation mask; 1 masks (R38). -/
  im : Bool
  /-- Bit 1, denormalized operand mask. -/
  dm : Bool
  /-- Bit 2, zero divide mask. -/
  zm : Bool
  /-- Bit 3, overflow mask. -/
  om : Bool
  /-- Bit 4, underflow mask. -/
  um : Bool
  /-- Bit 5, precision mask. -/
  pm : Bool
  /-- Bits 9-8, precision control (R40). -/
  pc : BitVec 2
  /-- Bits 11-10, rounding control (R39). -/
  rc : BitVec 2
  /-- Bit 12, storage only (R41). -/
  bit12 : Bool
deriving DecidableEq, Repr

/-- The status word (R27). -/
structure StatusWord where
  /-- Bits 0 to 5, the exception flags (R36). -/
  ie : Bool
  de : Bool
  ze : Bool
  oe : Bool
  ue : Bool
  pe : Bool
  /-- Bit 6, stack flag (R35). -/
  sf : Bool
  /-- Bit 7, error summary (R28). -/
  es : Bool
  /-- Bits 8, 9, 10, condition code (R30). -/
  c0 : Bool
  c1 : Bool
  c2 : Bool
  /-- Bits 13-11, the physical number of ST(0) (R29). -/
  top : BitVec 3
  /-- Bit 14, condition code. -/
  c3 : Bool
  /-- Bit 15, the copy of ES (R28). -/
  b : Bool
deriving DecidableEq, Repr

/-- An instruction or data pointer: selector and offset, and the linear form of the real-address images (R44, log 14). -/
structure Pointer where
  sel : Word
  off : DWord
  lin : DWord
deriving DecidableEq, Repr

/-- The state of the coprocessor (R20). -/
structure Npx where
  cw : ControlWord
  sw : StatusWord
  /-- R0 to R7 (R21). -/
  regs : Vector Ext 8
  /-- TAG(0) to TAG(7), by physical number (R25). -/
  tags : Vector Tag 8
  /-- The instruction pointer (R44). -/
  fip : Pointer
  /-- The data pointer (R44). -/
  fdp : Pointer
  /-- The opcode register (R47). -/
  fop : BitVec 11
deriving DecidableEq, Repr

/-- The CPU modes that select an image format (R48). -/
inductive Mode where
  | protectedMode | realMode | virtual86
deriving DecidableEq, Repr

/-- A segment as the operand checks see it: its selector, linear base and limit, whether its addressing limit is
0FFFFFFFFh (big) or 0FFFFh, whether it expands down (spec/20_memory.md R72, R91, R92; logs 3, 6), whether it is neither
null nor marked not present, and whether it may be written (R93, log 5). -/
structure Segment where
  sel : Word
  base : DWord
  limit : DWord
  big : Bool
  expandDown : Bool
  present : Bool
  writable : Bool
deriving DecidableEq, Repr

/-- A range of linear addresses, both ends included: whether the host lets no read or no write into it (R92, R93), and
whether it belongs to a memory-mapped device of the host (R86; log 5). -/
structure Region where
  lo : Nat
  hi : Nat
  noRead : Bool
  noWrite : Bool
  device : Bool
deriving DecidableEq, Repr

/-- The four vectors reserved for the NPX (spec/60_exceptions.md R410 to R413). -/
inductive InterruptVector where
  | v7 | v9 | v13 | v16
deriving DecidableEq, Repr

/-- What `raise Interrupt(n)` hands to the host: the vector and the return address (R423). -/
structure Interrupt where
  vector : InterruptVector
  sel : Word
  off : DWord
deriving DecidableEq, Repr

/-- Where the host enters on a vector (R423, log 28). -/
structure HandlerEntry where
  cs : Segment
  off : DWord
deriving DecidableEq, Repr

/-- The host CPU, as far as the NPX needs one (R3, R20, R57). -/
structure Cpu where
  eax : DWord
  ecx : DWord
  edx : DWord
  ebx : DWord
  esp : DWord
  ebp : DWord
  esi : DWord
  edi : DWord
  es : Segment
  cs : Segment
  ss : Segment
  ds : Segment
  fs : Segment
  gs : Segment
  eip : DWord
  eflags : DWord
  /-- CR0.EM (R57). -/
  em : Bool
  /-- CR0.TS (R57). -/
  ts : Bool
  mode : Mode
  /-- The default operand size: 32 bits, else 16 (R9 opsize). -/
  opSize32 : Bool
  /-- The default address size: 32 bits, else 16 (R9 adsize). -/
  adSize32 : Bool
  /-- The ranges of the linear address space that are not plain, accessible memory. -/
  blocked : List Region
  handler7 : Option HandlerEntry
  handler9 : Option HandlerEntry
  handler13 : Option HandlerEntry
  handler16 : Option HandlerEntry
  /-- The interrupt raised and not yet entered. -/
  interrupt : Option Interrupt
  /-- The last interrupt entered, as its handler sees it. -/
  taken : Option Interrupt
deriving DecidableEq, Repr

/-- Memory: the bytes that differ from what an unlisted address reads as, by rising linear address, and the addresses
an NPX store has written, rising (spec/20_memory.md R70, R90; logs 4, 26). -/
structure Memory where
  cells : List Host.Cell
  npxStored : List Nat
deriving DecidableEq, Repr

/-- The states of the bus control logic (spec/47_hardware_interface.md R370). -/
inductive BusPhase where
  | ti | trs | tp
deriving DecidableEq, Repr

/-- The five selected and unselected cycle types of Table 3.4 (R361). -/
inductive CycleType where
  /-- STEN inactive: not selected, all outputs floating. -/
  | floating
  | notSelected
  | controlRead
  | opcodeWrite
  | dataRead
  | dataWrite
deriving DecidableEq, Repr

/-- The bus cycle in progress: its type, latched when ADS was active, and how many TRS states it has had (R363, R370). -/
structure BusCycle where
  kind : CycleType
  trs : Nat
deriving DecidableEq, Repr

/-- The bus unit (spec/10_state.md R59; R356, R357, R364, R374). ERROR is the bit SW.ES (R58). -/
structure BusUnit where
  phase : BusPhase
  cycle : Option BusCycle
  /-- BUSY is active. -/
  busy : Bool
  /-- CLK periods until BUSY becomes active after an opcode write, 0 when none is awaited (t35 of R374). -/
  busyIn : Nat
  /-- CLK periods BUSY has been active (t32 of R374). -/
  busyFor : Nat
  /-- PEREQ is active. -/
  pereq : Bool
  /-- The pieces of the operand that are still to move while PEREQ is active (R357, R366). -/
  pieces : Nat
  /-- CLK periods PEREQ has been inactive since its last piece moved (t34 of R374). -/
  quietFor : Nat
  /-- CLK periods since ERROR changed in the instruction in progress; none when it has not (t33 of R374). -/
  errorFor : Option Nat
  /-- The data FIFO, the oldest item first. -/
  fifo : List DWord
  /-- The opcode word last written. -/
  opcode : Option DWord
  /-- The opcode last written is FLDENV's or FRSTOR's (R363). -/
  envLoad : Bool
  /-- The opcode last written is FNINIT's, FNCLEX's, FNSTENV's or FNSAVE's, which alone may make ERROR inactive (R357). -/
  clearsError : Bool
  /-- 387CLK2 periods RESETIN has been HIGH, 0 while it is LOW (t30 of R374). -/
  resetFor : Nat
  /-- 387CLK2 periods that must still pass before an opcode may be written after reset (t31 of R374). -/
  settle : Nat
  /-- CLK periods that must still pass after an opcode write before the next write (t36 of R374). -/
  writeGap : Nat
  /-- CLK periods that must still pass after an operand write before the next one (t37 of R374). -/
  dataGap : Nat
deriving DecidableEq, Repr

/-- The whole machine. -/
structure State where
  npx : Npx
  cpu : Cpu
  mem : Memory
  bus : BusUnit
  /-- The MODEL's own: how many instructions have run, to which the free values are applied (log 11). -/
  draws : Nat
  /-- The MODEL's own: interrupt 9 has made the NPX state any value, and no FNINIT has run since (R413, log 29). -/
  overrun : Bool
deriving DecidableEq, Repr

/-- Why a run leaves the spec during an instruction. -/
inductive Fault where
  /-- The host's own fault on an operand access (`host_fault` of spec/20_memory.md R93): a null or not-present segment, a
  stack-segment limit, a write to a read-only segment, a page that cannot be accessed. Raised by every instruction with a
  memory operand. Safe: the model stops where the host goes on. -/
  | hostAccess
deriving DecidableEq, Repr

/-- Why the model has no next state. Each is safe: the model stops where the hardware does something the spec does not
give. -/
inductive Refusal where
  /-- No meaning yet; raised by an arm of exec. -/
  | notModelled (mnemonic : String)
  /-- A reserved ESC encoding (spec/30_encoding.md R110). Raised by step. -/
  | reservedEncoding
  /-- The byte at CS:EIP begins no ESC and no WAIT: the host's own instruction (R107, spec/00_scope.md R7). Raised by
  step. -/
  | notNpxInstruction
  /-- LOCK or REP before the opcode (R105). Raised by step. -/
  | lockOrRepeat
  /-- The code reaches the end of its segment or of the address space (spec/10_state.md R24). Raised by step. -/
  | codeSegmentEnd
  /-- No instruction ends within fifteen bytes (log 22). Raised by step. -/
  | instructionTooLong
  /-- The host does not let the instruction's bytes be read (spec/20_memory.md R93). Raised by step. -/
  | codeAccess
  /-- The bytes to execute were stored by an NPX instruction (R90). Raised by step. -/
  | storedCode
  /-- An add, subtract, multiply, divide or square root while CW.PC = 01 (spec/93_implementation_defined.md U4). -/
  | reservedPrecision
  /-- FBLD of a digit above 9 (U6). -/
  | invalidBcdDigit
  /-- A memory operand in a device region of the host (spec/20_memory.md R86). Raised by every instruction with a memory
  operand. -/
  | deviceOperand
  /-- The system breaks a minimum time of RESETIN or between writes (t30, t31, t36, t37 of spec/47_hardware_interface.md
  R374; spec/93_implementation_defined.md U17). Raised by busClock alone. -/
  | busTiming
  /-- An interrupt was raised and the host has no handler for it (R423, spec/92_eei_decisions.md D32). Raised by step. -/
  | noHandler
deriving DecidableEq, Repr

/-- The control word after reset: 037Eh (R61, R450). -/
def ControlWord.reset : ControlWord :=
  { im := false, dm := true, zm := true, om := true, um := true, pm := true, pc := 3, rc := 0, bit12 := false }

/-- The status word after reset: 8081h (R61, R450). -/
def StatusWord.reset : StatusWord :=
  { ie := true, de := false, ze := false, oe := false, ue := false, pe := false, sf := false, es := true,
    c0 := false, c1 := false, c2 := false, top := 0, c3 := false, b := true }

/-- A pointer of zeros (DESIGN CHOICE at reset, log 8; the FNINIT value of R61). -/
def Pointer.zero : Pointer := { sel := 0, off := 0, lin := 0 }

/-- The NPX after reset (R61, R450; the data registers, FIP, FDP and FOP by log 8, unsafe). -/
def Npx.reset : Npx :=
  { cw := ControlWord.reset, sw := StatusWord.reset,
    regs := #v[0, 0, 0, 0, 0, 0, 0, 0],
    tags := #v[.empty, .empty, .empty, .empty, .empty, .empty, .empty, .empty],
    fip := Pointer.zero, fdp := Pointer.zero, fop := 0 }

/-- A data segment of the host after its reset (PRESUMED, log 9, unsafe). -/
def Segment.resetData : Segment :=
  { sel := 0, base := 0, limit := 0xFFFF, big := false, expandDown := false, present := true, writable := true }

/-- The host after its reset: the i386 family's values (PRESUMED, log 9, unsafe). -/
def Cpu.reset : Cpu :=
  { eax := 0, ecx := 0, edx := 0x300, ebx := 0, esp := 0, ebp := 0, esi := 0, edi := 0,
    es := Segment.resetData,
    cs := { sel := 0xF000, base := 0xFFFF0000, limit := 0xFFFF, big := false, expandDown := false, present := true,
            writable := true },
    ss := Segment.resetData, ds := Segment.resetData, fs := Segment.resetData, gs := Segment.resetData,
    eip := 0xFFF0, eflags := 2, em := false, ts := false, mode := .realMode, opSize32 := false, adSize32 := false,
    blocked := [], handler7 := none, handler9 := none, handler13 := none, handler16 := none,
    interrupt := none, taken := none }

/-- The bus unit after reset: TI, BUSY and PEREQ inactive (R61, R356), and 50 387CLK2 periods to pass before the first
opcode write (R356); the rest DESIGN CHOICE (log 38). -/
def BusUnit.reset : BusUnit :=
  { phase := .ti, cycle := none, busy := false, busyIn := 0, busyFor := 0, pereq := false, pieces := 0, quietFor := 0,
    errorFor := none, fifo := [], opcode := none, envLoad := false, clearsError := false, resetFor := 0, settle := 50, writeGap := 0,
    dataGap := 0 }

/-- The machine right after reset (R61, R450). -/
def State.reset : State :=
  { npx := Npx.reset, cpu := Cpu.reset, mem := { cells := [], npxStored := [] }, bus := BusUnit.reset,
    draws := 0, overrun := false }

end Sys2Proof.Machine
end

