-- ==== Sys2Proof/Machine/Numeric.lean ====
section
/-! DEFINITION. The arithmetic of spec/40_numerics_common.md as pure functions: reading an 80-bit pattern, exact
magnitudes, the rounding function R161, and the delivery of a result R163, R165, R178. No state is read here but the
control word. -/

namespace Sys2Proof.Machine

/-! Reading a pattern (R141 to R143). -/

/-- Bit 79. -/
def signOf (x : Ext) : Bool := x.getLsbD 79

/-- The biased exponent, bits 78-64. -/
def bexp (x : Ext) : Nat := (x.extractLsb' 64 15).toNat

/-- The significand, bits 63-0. -/
def sig (x : Ext) : Nat := (x.extractLsb' 0 64).toNat

/-- `ext(s, e, m)` of spec/00_scope.md R15. -/
def ext (s : Bool) (e m : Nat) : Ext := BitVec.ofBool s ++ BitVec.ofNat 15 e ++ BitVec.ofNat 64 m

/-- The classes of R142. -/
inductive Class where
  | zero | denormal | normal | infinity | qnan | snan | unsupported
deriving DecidableEq, Repr

/-- `class(x)`, total on the 2^80 patterns (R142). -/
def classOf (x : Ext) : Class :=
  if bexp x = 0 then
    if sig x = 0 then .zero else .denormal
  else if sig x < 2 ^ 63 then .unsupported
  else if bexp x < 0x7FFF then .normal
  else if sig x = 2 ^ 63 then .infinity
  else if x.getLsbD 62 then .qnan else .snan

/-- `tag_of(x)` (R152). -/
def tagOf (x : Ext) : Tag :=
  match classOf x with
  | .zero => .zero
  | .normal => .valid
  | _ => .special

/-- Class QNaN or SNaN (R142). -/
def isNaN (x : Ext) : Bool := classOf x == .qnan || classOf x == .snan

/-- `quiet(x)`: bit 62 set (R157). -/
def quiet (x : Ext) : Ext := x ||| (1 <<< 62)

/-- The real indefinite (R160). -/
def qnanIndef : Ext := 0xFFFFC000000000000000

/-- An infinity of a sign. -/
def infinity (s : Bool) : Ext := ext s 0x7FFF (2 ^ 63)

/-- A zero of a sign. -/
def zeroOf (s : Bool) : Ext := ext s 0 0

/-- +1.0. -/
def one : Ext := 0x3FFF8000000000000000

/-- The result NaN of NaN operands, at least one of a, b a NaN (R158). Which of two different NaN patterns is taken is
the parameter NAN_RULE (log 17). -/
def nanRule (a b : Ext) : Ext :=
  if !isNaN b then quiet a
  else if !isNaN a then quiet b
  else if a = b then quiet a
  else if a.toNat < b.toNat then (if Config.nanPicksLarger a b then quiet b else quiet a)
  else (if Config.nanPicksLarger b a then quiet a else quiet b)

/-! Exact magnitudes. -/

/-- A nonnegative real: m * 2^e when `sticky` is false, else some number strictly between m * 2^e and (m + 1) * 2^e.
A sticky magnitude always has at least 66 significant bits, more than any rounding keeps. -/
structure Mag where
  m : Nat
  e : Int
  sticky : Bool
deriving DecidableEq, Repr

/-- The exponent that stands for a pattern's binary point: field 0 stands for field 1 (R143). -/
def trueExp (x : Ext) : Int := (max (bexp x) 1 : Nat) - 16446

/-- |val(x)| for finite x (R143): sig(x) * 2^(e - 16383 - 63). -/
def magOf (x : Ext) : Mag := { m := sig x, e := trueExp x, sticky := false }

/-- floor(log2 v) for v nonzero. -/
def Mag.log2 (v : Mag) : Int := v.e + v.m.log2

/-- val(x) * 2^16445 for finite x, an integer (R143). -/
def fixed (x : Ext) : Int :=
  if signOf x then -((sig x <<< (max (bexp x) 1 - 1) : Nat) : Int) else ((sig x <<< (max (bexp x) 1 - 1) : Nat) : Int)

/-- The exact product. -/
def mulMag (a b : Mag) : Mag := { m := a.m * b.m, e := a.e + b.e, sticky := false }

/-- The exact quotient of magnitudes below 2^64, b nonzero, to at least 66 bits. -/
def divMag (a b : Mag) : Mag :=
  { m := (a.m <<< 130) / b.m, e := a.e - b.e - 130, sticky := (a.m <<< 130) % b.m != 0 }

/-- The integer square root of n below 2^(2k), bit by bit from bit k-1, above the bits r already found. -/
def isqrtFrom (n : Nat) : Nat → Nat → Nat
  | 0, r => r
  | k + 1, r => if (r + 2 ^ k) * (r + 2 ^ k) ≤ n then isqrtFrom n k (r + 2 ^ k) else isqrtFrom n k r

/-- The exact square root of a nonzero magnitude below 2^64 * 2^e, to at least 66 bits. -/
def sqrtMag (a : Mag) : Mag :=
  let shift : Nat := if a.e % 2 = 0 then 132 else 133
  let n := a.m <<< shift
  let r := isqrtFrom n 100 0
  { m := r, e := (a.e - shift) / 2, sticky := r * r != n }

/-! Rounding (R161). -/

/-- The outcome of a rounding to a multiple of a power of two: the multiple, whether it differs from the exact value,
and whether it is larger in magnitude. -/
structure Rounded where
  q : Nat
  inexact : Bool
  up : Bool
deriving DecidableEq, Repr

/-- The column `up` of R161: `half` compares the remainder with half an ulp. -/
def roundsUp (rc : BitVec 2) (neg : Bool) (q : Nat) (inexact : Bool) (half : Ordering) : Bool :=
  match rc.toNat with
  | 0 => half == .gt || (half == .eq && q % 2 == 1)
  | 1 => inexact && neg
  | 2 => inexact && !neg
  | _ => false

/-- Round v to a multiple of 2^u (R161, and R165 at the smallest ulp; R224 at 2^0). -/
def roundAt (rc : BitVec 2) (neg : Bool) (u : Int) (v : Mag) : Rounded :=
  let d := (u - v.e).toNat
  let q := if u ≤ v.e then v.m <<< (v.e - u).toNat else v.m >>> d
  let rem := if u ≤ v.e then 0 else v.m % 2 ^ d
  let half := if u ≤ v.e then .lt else
    if v.sticky && rem == 2 ^ (d - 1) then .gt else compare rem (2 ^ (d - 1))
  let inexact := rem != 0 || v.sticky
  let up := roundsUp rc neg q inexact half
  { q := if up then q + 1 else q, inexact := inexact, up := up }

/-- Round v to p bits (R161): the multiple of 2^(E - p + 1). -/
def roundTo (rc : BitVec 2) (neg : Bool) (p : Nat) (v : Mag) : Rounded := roundAt rc neg (v.log2 - p + 1) v

/-! Results. -/

/-- The six exceptions one instruction signals (R170). -/
structure Signals where
  ie : Bool := false
  de : Bool := false
  ze : Bool := false
  oe : Bool := false
  ue : Bool := false
  pe : Bool := false
deriving DecidableEq, Repr

/-- What an instruction does to C1. -/
inductive C1Effect where
  /-- C1 keeps its value: FPREM and FPREM1 ended by an unmasked exception (R173, log 30). -/
  | keep
  | set (b : Bool)
  /-- A free value (log 33). -/
  | draw
deriving DecidableEq, Repr

/-- What an instruction's rule decides: the exceptions it signals, whether a stack fault is among them, its result
(none when it ends without one), and C1. -/
structure Result (α : Type) where
  signals : Signals
  sf : Bool := false
  val : Option α
  c1 : C1Effect
deriving DecidableEq, Repr

/-- A result without an exception. -/
def Result.ok {α : Type} (x : α) (c1 : Bool := false) : Result α :=
  { signals := {}, val := some x, c1 := .set c1 }

/-- Add a masked denormal-operand exception to what follows (R172 step 4). -/
def Result.withDenormal {α : Type} (d : Bool) (r : Result α) : Result α :=
  if d then { r with signals := { r.signals with de := true } } else r

/-- An invalid operation that is no stack fault (R171): the response if masked, nothing if not; C1 is 0 (R31, log 30; of
FPREM and FPREM1 masked: log 31). -/
def Result.invalid {α : Type} (cw : ControlWord) (x : α) : Result α :=
  { signals := { ie := true }, val := if cw.im then some x else none, c1 := .set false }

/-- A stack underflow (R155, R171): C1 is 0. -/
def Result.underflow {α : Type} (cw : ControlWord) (x : α) : Result α :=
  { signals := { ie := true }, sf := true, val := if cw.im then some x else none, c1 := .set false }

/-- A stack overflow (R153, R171): C1 is 1. -/
def Result.overflow {α : Type} (cw : ControlWord) (x : α) : Result α :=
  { signals := { ie := true }, sf := true, val := if cw.im then some x else none, c1 := .set true }

/-- An unmasked denormal-operand exception (R168): nothing written but C1, 0 (R31, log 30). -/
def Result.denormalAbort {α : Type} : Result α := { signals := { de := true }, val := none, c1 := .set false }

/-- The response to a denormal-class operand (R168): end if DM = 0, else go on with the value. -/
def Result.denormal {α : Type} (cw : ControlWord) (d : Bool) (r : Result α) : Result α :=
  if d && !cw.dm then .denormalAbort else r.withDenormal d

/-- A zero divide (R169): the infinity if masked, nothing if not; C1 is 0 (R31, log 30). -/
def Result.zeroDivide {α : Type} (cw : ControlWord) (x : α) : Result α :=
  { signals := { ze := true }, val := if cw.zm then some x else none, c1 := .set false }

/-- The class test of a one-operand instruction (R159, R172 steps 2 and 3): unsupported, then signaling NaN, then quiet
NaN; any other operand goes on. -/
def Result.oneOperand (cw : ControlWord) (x : Ext) (k : Result Ext) : Result Ext :=
  match classOf x with
  | .unsupported => .invalid cw qnanIndef
  | .snan => .invalid cw (quiet x)
  | .qnan => .ok x
  | _ => k

/-- The same for two operands (R158). -/
def Result.twoOperands (cw : ControlWord) (a b : Ext) (k : Result Ext) : Result Ext :=
  if classOf a = .unsupported ∨ classOf b = .unsupported then .invalid cw qnanIndef
  else if classOf a = .snan ∨ classOf b = .snan then .invalid cw (nanRule a b)
  else if classOf a = .qnan ∨ classOf b = .qnan then .ok (nanRule a b)
  else k

/-- The nonzero number q * 2^u, with at most 65 bits and in the extended range, as a normal pattern (R178). -/
def encodeNormal (s : Bool) (q : Nat) (u : Int) : Ext :=
  ext s (q.log2 + u + 16383).toNat (if q.log2 ≤ 63 then q <<< (63 - q.log2) else q >>> (q.log2 - 63))

/-- The integer q as an extended number, q below 2^64 (R227, R228, R288). -/
def encodeNat (s : Bool) (q : Nat) : Ext := if q = 0 then zeroOf s else encodeNormal s q 0

/-- The largest finite number of precision p (R163). -/
def largestFinite (s : Bool) (p : Nat) : Ext := ext s 0x7FFE (2 ^ 64 - 2 ^ (64 - p))

/-- The table of R163: whether a masked overflow delivers infinity. -/
def overflowsToInfinity (rc : BitVec 2) (neg : Bool) : Bool :=
  match rc.toNat with
  | 0 => true
  | 1 => neg
  | 2 => !neg
  | _ => false

/-- Overflow on a register destination (R163); r is the value rounded to p bits, a multiple of 2^u. -/
def deliverOverflow (cw : ControlWord) (p : Nat) (neg : Bool) (u : Int) (r : Rounded) : Result Ext :=
  if cw.om then
    { signals := { oe := true, pe := true },
      val := some (if overflowsToInfinity cw.rc neg then infinity neg else largestFinite neg p),
      c1 := .set (overflowsToInfinity cw.rc neg) }
  else
    { signals := { oe := true, pe := r.inexact },
      val := some (if 16384 ≤ r.q.log2 + u - 24576 then infinity neg else encodeNormal neg r.q (u - 24576)),
      c1 := .set r.up }

/-- Underflow on a register destination (R165). -/
def deliverUnderflow (cw : ControlWord) (p : Nat) (neg : Bool) (v : Mag) (u : Int) (r : Rounded) : Result Ext :=
  if cw.um then
    let t := roundAt cw.rc neg (-16382 - p + 1) v
    let m := t.q <<< (64 - p)
    { signals := { ue := t.inexact, pe := t.inexact },
      val := some (ext neg (if m < 2 ^ 63 then 0 else 1) m), c1 := .set t.up }
  else
    { signals := { ue := true, pe := r.inexact },
      val := some (if r.q.log2 + u + 24576 < -16382 then zeroOf neg else encodeNormal neg r.q (u + 24576)),
      c1 := .set r.up }

/-- A result is tiny (R165): after rounding, or before it where TININESS says so (log 16). -/
def isTiny (emin : Int) (v : Mag) (u : Int) (r : Rounded) : Bool :=
  decide (r.q.log2 + u < emin) || (decide (v.log2 < emin) && Config.tininessBeforeRounding)

/-- `deliver_reg` (R178): the result of sign neg and exact nonzero magnitude v in precision p. -/
def deliver (cw : ControlWord) (p : Nat) (neg : Bool) (v : Mag) : Result Ext :=
  let u := v.log2 - p + 1
  let r := roundTo cw.rc neg p v
  if 16384 ≤ r.q.log2 + u then deliverOverflow cw p neg u r
  else if isTiny (-16382) v u r then deliverUnderflow cw p neg v u r
  else { signals := { pe := r.inexact }, val := some (encodeNormal neg r.q u), c1 := .set r.up }

/-- The precision that CW.PC selects, for PC other than the reserved 01 (R40, R162). -/
def precisionOf (pc : BitVec 2) : Nat :=
  match pc.toNat with
  | 0 => 24
  | 2 => 53
  | _ => 64

/-! Conversions (spec/41_data_transfer.md R223 to R228). -/

/-- The single and double formats (spec/20_memory.md R76): exponent width, fraction width, bias. -/
structure RealFormat where
  ew : Nat
  fw : Nat
  bias : Nat
deriving DecidableEq, Repr

def single : RealFormat := { ew := 8, fw := 23, bias := 127 }
def double : RealFormat := { ew := 11, fw := 52, bias := 1023 }

/-- The exponent field of all ones. -/
def RealFormat.ones (f : RealFormat) : Nat := 2 ^ f.ew - 1

/-- Sign, exponent and fraction fields as a number. -/
def RealFormat.pack (f : RealFormat) (s : Bool) (e frac : Nat) : Nat :=
  (if s then 2 ^ (f.ew + f.fw) else 0) + e * 2 ^ f.fw + frac

/-- `store_real` (R223) without the write: the number of a register pattern in the format. An unmasked overflow or
underflow stores nothing (R164, R165); C1 then tells of the rounding to the format's precision (R31, DEDUCED, log 46). -/
def storeReal (cw : ControlWord) (f : RealFormat) (x : Ext) : Result Nat :=
  let s := signOf x
  let nanBits (y : Ext) : Nat := f.pack s f.ones (sig y % 2 ^ 63 / 2 ^ (63 - f.fw))
  match classOf x with
  | .unsupported => .invalid cw (f.pack true f.ones (2 ^ (f.fw - 1)))
  | .snan => .invalid cw (nanBits (quiet x))
  | .qnan => .ok (nanBits x)
  | .infinity => .ok (f.pack s f.ones 0)
  | .zero => .ok (f.pack s 0 0)
  | .denormal | .normal =>
    let v := magOf x
    let p := f.fw + 1
    let u := v.log2 - p + 1
    let r := roundTo cw.rc s p v
    let emin : Int := 1 - f.bias
    if (f.bias : Int) + 1 ≤ r.q.log2 + u then
      if cw.om then
        { signals := { oe := true, pe := true },
          val := some (if overflowsToInfinity cw.rc s then f.pack s f.ones 0
            else f.pack s (f.ones - 1) (2 ^ f.fw - 1)),
          c1 := .set (overflowsToInfinity cw.rc s) }
      else { signals := { oe := true }, val := none, c1 := .set r.up }
    else if isTiny emin v u r then
      if cw.um then
        let t := roundAt cw.rc s (emin - p + 1) v
        { signals := { ue := t.inexact, pe := t.inexact }, val := some (f.pack s 0 t.q), c1 := .set t.up }
      else { signals := { ue := true }, val := none, c1 := .set r.up }
    else
      { signals := { pe := r.inexact },
        val := some (f.pack s (r.q.log2 + u + f.bias).toNat
          ((if r.q.log2 ≤ f.fw then r.q else r.q >>> 1) % 2 ^ f.fw)),
        c1 := .set r.up }

/-- `round_int` of a finite pattern's magnitude (R224). -/
def roundInt (rc : BitVec 2) (x : Ext) : Rounded := roundAt rc (signOf x) 0 (magOf x)

/-- The integer indefinite of width n: the top bit alone (R160). -/
def intIndef (n : Nat) : Nat := 2 ^ (n - 1)

/-- `store_int` (R224) without the write: the two's complement of the rounded value in n bits. -/
def storeInt (cw : ControlWord) (n : Nat) (x : Ext) : Result Nat :=
  match classOf x with
  | .unsupported | .snan | .qnan | .infinity => .invalid cw (intIndef n)
  | .zero => .ok 0
  | .denormal | .normal =>
    let r := roundInt cw.rc x
    if (if signOf x then 2 ^ (n - 1) < r.q else 2 ^ (n - 1) - 1 < r.q) then .invalid cw (intIndef n)
    else
      { signals := { pe := r.inexact }, val := some (if signOf x && r.q != 0 then 2 ^ n - r.q else r.q),
        c1 := .set r.up }

/-- k decimal digits of a number, four bits each, the least significant first (spec/20_memory.md R78). -/
def bcdDigits : Nat → Nat → Nat
  | 0, _ => 0
  | k + 1, n => n % 10 + 16 * bcdDigits k (n / 10)

/-- The packed decimal of a sign and a magnitude below 10^18 (R78). -/
def packBcd (s : Bool) (n : Nat) : Nat := (if s then 0x80 * 2 ^ 72 else 0) + bcdDigits 18 n

/-- BCD_INDEF (R160). -/
def bcdIndef : Nat := 0xFFFFC000000000000000

/-- The conversion of FBSTP (R225). -/
def storeBcd (cw : ControlWord) (x : Ext) : Result Nat :=
  match classOf x with
  | .unsupported | .snan | .qnan | .infinity => .invalid cw bcdIndef
  | .zero => .ok (packBcd (signOf x) 0)
  | .denormal | .normal =>
    let r := roundInt cw.rc x
    if 10 ^ 18 ≤ r.q then .invalid cw bcdIndef
    else { signals := { pe := r.inexact }, val := some (packBcd (signOf x) r.q), c1 := .set r.up }

/-- An operand of an arithmetic instruction: a pattern, and whether it counts as denormalized (spec/44_arithmetic.md
R261). -/
structure Operand80 where
  x : Ext
  denormal : Bool
deriving DecidableEq, Repr

/-- `widen` (R261): the value mapping of R226 that signals nothing and keeps a signaling NaN signaling. -/
def widen (f : RealFormat) (y : Nat) : Operand80 :=
  let s := y / 2 ^ (f.ew + f.fw) % 2 == 1
  let e := y / 2 ^ f.fw % 2 ^ f.ew
  let frac := y % 2 ^ f.fw
  if e = f.ones then { x := ext s 0x7FFF (2 ^ 63 + frac * 2 ^ (63 - f.fw)), denormal := false }
  else if e ≠ 0 then { x := ext s (e + 16383 - f.bias) (2 ^ 63 + frac * 2 ^ (63 - f.fw)), denormal := false }
  else if frac = 0 then { x := zeroOf s, denormal := false }
  else
    { x := ext s (16383 + 1 + frac.log2 - f.bias - f.fw) (frac <<< (63 - frac.log2)), denormal := true }

/-- `load_real` (R226): the widened value, quieted; a signaling NaN signals IE, a denormal DE. -/
def loadReal (cw : ControlWord) (f : RealFormat) (y : Nat) : Result Ext :=
  let w := widen f y
  if classOf w.x = .snan then .invalid cw (quiet w.x)
  else Result.denormal cw w.denormal (.ok w.x)

/-- The exact conversion of an n-bit two's complement integer (R227). -/
def intToExt (n : Nat) (y : Nat) : Ext :=
  if y < 2 ^ (n - 1) then encodeNat false y else encodeNat true (2 ^ n - y)

/-- Digit k of a packed decimal (R78). -/
def bcdDigit (y k : Nat) : Nat := y / 16 ^ k % 16

/-- Some digit is above 9 (R228, spec/93_implementation_defined.md U6). -/
def hasBadDigit (y : Nat) : Bool := (List.range 18).any fun k => 9 < bcdDigit y k

/-- The number of a packed decimal's k lowest digits. -/
def bcdValue : Nat → Nat → Nat
  | 0, _ => 0
  | k + 1, y => y % 16 + 10 * bcdValue k (y / 16)

/-- The conversion of FBLD (R228); bits 78-72 are ignored. -/
def bcdToExt (y : Nat) : Ext := encodeNat (y / 2 ^ 79 % 2 == 1) (bcdValue 18 y)

end Sys2Proof.Machine
end

