-- ==== Sys2Proof/Machine/Flags.lean ====
section
/-! DEFINITION. The status, control and tag words as 16-bit values, and the updates of the status word: signalling, ES
and B, the condition code. spec/10_state.md R25 to R41; spec/40_numerics_common.md R170, R171, R175, R177. -/

namespace Sys2Proof.Machine

/-- The 16 bits of the status word (R27). -/
def StatusWord.toBits (w : StatusWord) : Word :=
  BitVec.ofBool w.b ++ BitVec.ofBool w.c3 ++ w.top ++ BitVec.ofBool w.c2 ++ BitVec.ofBool w.c1 ++ BitVec.ofBool w.c0
    ++ BitVec.ofBool w.es ++ BitVec.ofBool w.sf ++ BitVec.ofBool w.pe ++ BitVec.ofBool w.ue ++ BitVec.ofBool w.oe
    ++ BitVec.ofBool w.ze ++ BitVec.ofBool w.de ++ BitVec.ofBool w.ie

/-- The status word of 16 bits (R27). -/
def StatusWord.ofBits (v : Word) : StatusWord :=
  { ie := v.getLsbD 0, de := v.getLsbD 1, ze := v.getLsbD 2, oe := v.getLsbD 3, ue := v.getLsbD 4, pe := v.getLsbD 5,
    sf := v.getLsbD 6, es := v.getLsbD 7, c0 := v.getLsbD 8, c1 := v.getLsbD 9, c2 := v.getLsbD 10,
    top := v.extractLsb' 11 3, c3 := v.getLsbD 14, b := v.getLsbD 15 }

/-- The 16 bits of the control word as a store returns them; the five reserved bits 15, 14, 13, 7, 6 are `reserved`
(R38, R41, log 12). -/
def ControlWord.toBits (w : ControlWord) (reserved : BitVec 5) : Word :=
  reserved.extractLsb' 2 3 ++ BitVec.ofBool w.bit12 ++ w.rc ++ w.pc ++ reserved.extractLsb' 0 2
    ++ BitVec.ofBool w.pm ++ BitVec.ofBool w.um ++ BitVec.ofBool w.om ++ BitVec.ofBool w.zm ++ BitVec.ofBool w.dm
    ++ BitVec.ofBool w.im

/-- The control word a load of 16 bits leaves; bits 15-13, 7 and 6 are ignored (R38, R41). -/
def ControlWord.ofBits (v : Word) : ControlWord :=
  { im := v.getLsbD 0, dm := v.getLsbD 1, zm := v.getLsbD 2, om := v.getLsbD 3, um := v.getLsbD 4, pm := v.getLsbD 5,
    pc := v.extractLsb' 8 2, rc := v.extractLsb' 10 2, bit12 := v.getLsbD 12 }

/-- The two bits of a tag (R25). -/
def Tag.toBits : Tag → BitVec 2
  | .valid => 0
  | .zero => 1
  | .special => 2
  | .empty => 3

/-- The tag of two bits (R25). -/
def Tag.ofBits (v : BitVec 2) : Tag :=
  match v.toNat with
  | 0 => .valid
  | 1 => .zero
  | 2 => .special
  | _ => .empty

/-- The tag word: TAG(7) in bits 15-14 down to TAG(0) in bits 1-0 (R25). -/
def tagWord (t : Vector Tag 8) : Word :=
  t[7].toBits ++ t[6].toBits ++ t[5].toBits ++ t[4].toBits ++ t[3].toBits ++ t[2].toBits ++ t[1].toBits ++ t[0].toBits

/-- Some flag of the status word is set whose mask is 0: what ES reflects (R28). -/
def unmaskedFlag (cw : ControlWord) (w : StatusWord) : Bool :=
  (w.ie && !cw.im) || (w.de && !cw.dm) || (w.ze && !cw.zm) || (w.oe && !cw.om) || (w.ue && !cw.um) || (w.pe && !cw.pm)

/-- Some exception of an instruction is unmasked (R170). -/
def Signals.unmasked (g : Signals) (cw : ControlWord) : Bool :=
  (g.ie && !cw.im) || (g.de && !cw.dm) || (g.ze && !cw.zm) || (g.oe && !cw.om) || (g.ue && !cw.um) || (g.pe && !cw.pm)

/-- ES and B recomputed from flags and masks (R28, R331). -/
def StatusWord.refresh (w : StatusWord) (cw : ControlWord) : StatusWord :=
  { w with es := unmaskedFlag cw w, b := unmaskedFlag cw w }

/-- `signal` of each exception, and SF for a stack fault (R170, R171): flags are only ever set, and ES and B with an
unmasked one. -/
def StatusWord.signal (w : StatusWord) (cw : ControlWord) (g : Signals) (sf : Bool) : StatusWord :=
  { w with
    ie := w.ie || g.ie, de := w.de || g.de, ze := w.ze || g.ze, oe := w.oe || g.oe, ue := w.ue || g.ue,
    pe := w.pe || g.pe, sf := w.sf || sf, es := w.es || g.unmasked cw, b := w.b || g.unmasked cw }

/-- `C1 <- b` (R177). -/
def StatusWord.withC1 (w : StatusWord) (b : Bool) : StatusWord := { w with c1 := b }

/-- `set_cc(c3, c2, c0)` (R177). -/
def StatusWord.withCc (w : StatusWord) (c3 c2 c0 : Bool) : StatusWord := { w with c3 := c3, c2 := c2, c0 := c0 }

/-- TOP (R29). -/
def StatusWord.withTop (w : StatusWord) (t : BitVec 3) : StatusWord := { w with top := t }

/-- The undefined C3, C2, C0 of the instruction numbered n (parameter UNDEF_CC, R177, log 13): bits 2, 1, 0. -/
def drawnCc (n : Nat) : BitVec 3 := Config.draw 3 .conditionCode n

/-- The undefined C1 of the instruction numbered n (log 13). -/
def drawnC1 (n : Nat) : Bool := (Config.draw 1 .roundup n).getLsbD 0

/-- `undef_cc()` (R177): C3, C2, C0 become free values. -/
def StatusWord.undefCc (w : StatusWord) (n : Nat) : StatusWord :=
  w.withCc ((drawnCc n).getLsbD 2) ((drawnCc n).getLsbD 1) ((drawnCc n).getLsbD 0)

/-- All four condition-code bits become free values (spec/46_processor_control.md R320 f). -/
def StatusWord.undefAll (w : StatusWord) (n : Nat) : StatusWord := (w.undefCc n).withC1 (drawnC1 n)

/-- What an instruction does to C1. -/
def StatusWord.applyC1 (w : StatusWord) (n : Nat) : C1Effect → StatusWord
  | .keep => w
  | .set b => w.withC1 b
  | .draw => w.withC1 (drawnC1 n)

/-- The control word after FNINIT: 037Fh (R61). -/
def ControlWord.init : ControlWord := { ControlWord.reset with im := true }

/-- The status word after FNINIT: 0000h (R61). -/
def StatusWord.init : StatusWord := { StatusWord.reset with ie := false, es := false, b := false }

end Sys2Proof.Machine
end

