-- ==== Sys2Proof/Machine/Operands.lean ====
section
/-! DEFINITION. Memory operands: the effective address and its segment (spec/30_encoding.md R112, R113), the bytes an
operand occupies and whether the host lets them be accessed (spec/20_memory.md R91 to R93), and their contents. -/

namespace Sys2Proof.Machine

/-! The address. -/

/-- `reg32` (R112). -/
def Cpu.gpr (c : Cpu) : Gpr → DWord
  | .eax => c.eax
  | .ecx => c.ecx
  | .edx => c.edx
  | .ebx => c.ebx
  | .esp => c.esp
  | .ebp => c.ebp
  | .esi => c.esi
  | .edi => c.edi

/-- A segment register (R113). -/
def Cpu.segment (c : Cpu) : SegReg → Segment
  | .es => c.es
  | .cs => c.cs
  | .ss => c.ss
  | .ds => c.ds
  | .fs => c.fs
  | .gs => c.gs

/-- The low half of a general register: BX, BP, SI, DI (R112). -/
def Cpu.gpr16 (c : Cpu) (r : Gpr) : Word := (c.gpr r).extractLsb' 0 16

/-- A displacement extended to the address size: disp8 is sign-extended (R112, R114). -/
def Disp.value {w : Nat} : Disp w → BitVec w
  | .none => 0
  | .d8 d => d.signExtend w
  | .full d => d

/-- The base and index sum of a 16-bit form, modulo 2^16 (R112). -/
def Cpu.base16 (c : Cpu) : Base16 → Word
  | .bxsi => c.gpr16 .ebx + c.gpr16 .esi
  | .bxdi => c.gpr16 .ebx + c.gpr16 .edi
  | .bpsi => c.gpr16 .ebp + c.gpr16 .esi
  | .bpdi => c.gpr16 .ebp + c.gpr16 .edi
  | .si => c.gpr16 .esi
  | .di => c.gpr16 .edi
  | .bp => c.gpr16 .ebp
  | .bx => c.gpr16 .ebx

/-- The scaled index of a SIB form; none is index 100 (R112). -/
def Cpu.scaledIndex (c : Cpu) (ss : BitVec 2) : Option Gpr → DWord
  | none => 0
  | some r => c.gpr r <<< ss.toNat

/-- The offset of a memory operand (R112): sums modulo 2^32, or modulo 2^16 in the 16-bit forms. -/
def Cpu.offsetOf (c : Cpu) : MemOperand → DWord
  | .disp32 d => d
  | .base32 r d => c.gpr r + Disp.value d
  | .sib ss index base d => c.gpr base + c.scaledIndex ss index + Disp.value d
  | .sibNoBase ss index d => c.scaledIndex ss index + d
  | .disp16 d => d.setWidth 32
  | .base16 b d => (c.base16 b + Disp.value d).setWidth 32

/-- The default segment: SS when the base register is ESP, EBP or BP, else DS (R113). -/
def defaultSegment : MemOperand → SegReg
  | .base32 r _ => if r = .esp ∨ r = .ebp then .ss else .ds
  | .sib _ _ base _ => if base = .esp ∨ base = .ebp then .ss else .ds
  | .base16 b _ => if b = .bpsi ∨ b = .bpdi ∨ b = .bp then .ss else .ds
  | .disp32 _ => .ds
  | .sibNoBase _ _ _ => .ds
  | .disp16 _ => .ds

/-- The segment of an operand: the last segment byte before the opcode wins over the default (R113, log 22). -/
def operandSegment (p : List PrefixByte) (m : MemOperand) : SegReg :=
  p.foldl (fun r b => match b with
    | .seg x => x
    | .opSize => r
    | .adSize => r) (defaultSegment m)

/-- A memory operand with its address computed: `addr` of spec/00_scope.md R13, its size in bytes, and whether it is
addressed through SS, whose limit R93 gives to the host. -/
structure Operand where
  seg : Segment
  off : DWord
  bytes : Nat
  stack : Bool
deriving DecidableEq, Repr

/-- The operand of an instruction. -/
def Cpu.operand (c : Cpu) (p : List PrefixByte) (m : MemOperand) (bytes : Nat) : Operand :=
  { seg := c.segment (operandSegment p m), off := c.offsetOf m, bytes := bytes, stack := operandSegment p m == .ss }

/-! The bytes of an operand. -/

/-- The addressing limit plus one: 10000h in a small segment, 100000000h in a big one (R92). -/
def Segment.offsetModulus (g : Segment) : Nat := if g.big then 2 ^ 32 else 2 ^ 16

/-- The offset of byte k: it wraps modulo the addressing limit plus one, wherever the operand starts (R92). -/
def Operand.offset (o : Operand) (k : Nat) : Nat := (o.off.toNat + k) % o.seg.offsetModulus

/-- An offset lies within the segment's limit (R91; the expand-down reading PRESUMED, log 6). -/
def Segment.contains (g : Segment) (off : Nat) : Bool :=
  if g.expandDown then decide (g.limit.toNat < off) && decide (off < g.offsetModulus)
  else decide (off ≤ g.limit.toNat)

/-- The linear address of byte k: the segment's base plus the offset, modulo 2^32 (log 3). -/
def Operand.linear (o : Operand) (k : Nat) : Nat := (o.seg.base.toNat + o.offset k) % 2 ^ 32

/-- The linear addresses of an operand's bytes, byte 0 first. -/
def Operand.addrs (o : Operand) : List Nat := (List.range o.bytes).map o.linear

/-- The bytes of the first piece: a word for a 2-byte operand, else a doubleword (R91). -/
def Operand.firstPiece (o : Operand) : Nat := min o.bytes (if o.bytes = 2 then 2 else 4)

/-- The first word or doubleword is entirely within the limit of its segment (R91). The start offset is looked at as it was
computed, before it wraps: an operand that starts beyond the limit does not pass because its bytes wrap into the segment
(DEDUCED from R91 and from Appendix A item 7 in spec/60_exceptions.md R412, log 6). -/
def Operand.firstInLimit (o : Operand) : Bool :=
  o.seg.contains o.off.toNat && (List.range o.firstPiece).all fun k => o.seg.contains (o.offset k)

/-- The first piece is beyond the limit of a segment other than the stack's: interrupt 13 (R91; R93 leaves a null or
not-present segment and a stack-segment limit to the host). -/
def Operand.limitFault (o : Operand) : Bool := o.seg.present && !o.stack && !o.firstInLimit

/-- The segment itself fails the access: the host's own fault (R93). -/
def Operand.segmentFault (o : Operand) : Bool := !o.seg.present || (o.stack && !o.firstInLimit)

/-- A linear address belongs to a memory-mapped device (R86, log 5). -/
def Cpu.inDevice (c : Cpu) (a : Nat) : Bool :=
  c.blocked.any fun r => decide (r.lo ≤ a) && decide (a ≤ r.hi) && r.device

/-- The host lets a linear address be read, or written (R92, R93, log 5). -/
def Cpu.accessible (c : Cpu) (write : Bool) (a : Nat) : Bool :=
  c.blocked.all fun r => !(decide (r.lo ≤ a) && decide (a ≤ r.hi) && (if write then r.noWrite else r.noRead))

/-- How the transfer of an operand ends: `access_ok` (R93) after the checks of the segment. -/
inductive Transfer where
  /-- Every byte can be transferred. -/
  | ok
  /-- Some byte of the operand lies in a device region: refused (R86). -/
  | device
  /-- A later byte is inaccessible as R92 says: interrupt 9. -/
  | overrun
  /-- Any other host fault (R93). -/
  | hostFault
deriving DecidableEq, Repr

/-- The transfer of an operand whose first piece is within the limit (R86, R92, R93, logs 5, 6, 43): a byte in a device
region is refused; a write to a read-only segment is the host's own fault; a later byte outside the limit, or inaccessible
while the last byte is accessible, is a segment overrun; an inaccessible first piece, or an operand that ends
inaccessible, is the host's own fault. -/
def Cpu.transfer (c : Cpu) (o : Operand) (write : Bool) : Transfer :=
  if (List.range o.bytes).any fun k => c.inDevice (o.linear k) then .device
  else if write && !o.seg.writable then .hostFault
  else if !(List.range o.firstPiece).all fun k => c.accessible write (o.linear k) then .hostFault
  else if !(List.range o.bytes).all fun k => o.seg.contains (o.offset k) then .overrun
  else if (List.range o.bytes).all fun k => c.accessible write (o.linear k) then .ok
  else if c.accessible write (o.linear (o.bytes - 1)) then .overrun
  else .hostFault

/-! Memory (spec/20_memory.md R70, R81). -/

/-- The byte at an address; an unlisted address reads as 0 (DESIGN CHOICE, unsafe, log 4). -/
def cellAt (a : Nat) : List Host.Cell → Byte
  | [] => 0
  | (a', b) :: t => if a' = a then b else cellAt a t

/-- One byte set, in the canonical form: rising addresses, no byte 0 listed. -/
def setCell (a : Nat) (b : Byte) : List Host.Cell → List Host.Cell
  | [] => if b = 0 then [] else [(a, b)]
  | (a', b') :: t =>
    if a < a' then (if b = 0 then (a', b') :: t else (a, b) :: (a', b') :: t)
    else if a = a' then (if b = 0 then t else (a, b) :: t)
    else (a', b') :: setCell a b t

/-- An address added to a rising list. -/
def insertAddr (a : Nat) : List Nat → List Nat
  | [] => [a]
  | a' :: t => if a < a' then a :: a' :: t else if a = a' then a' :: t else a' :: insertAddr a t

/-- An address removed from a rising list. -/
def removeAddr (a : Nat) : List Nat → List Nat
  | [] => []
  | a' :: t => if a = a' then t else a' :: removeAddr a t

/-- The byte at a linear address. -/
def Memory.read (m : Memory) (a : Nat) : Byte := cellAt a m.cells

/-- A byte written for the NPX (R81, R90). -/
def Memory.write (m : Memory) (a : Nat) (b : Byte) : Memory :=
  { cells := setCell a b m.cells, npxStored := insertAddr a m.npxStored }

/-- A byte of a program placed in memory from outside (log 41): not one an NPX store wrote. -/
def Memory.place (m : Memory) (a : Nat) (b : Byte) : Memory :=
  { cells := setCell a b m.cells, npxStored := removeAddr a m.npxStored }

/-- `MemRead` (spec/00_scope.md R13, R70): the bytes at the addresses, the first the least significant. -/
def Memory.readAll (m : Memory) : List Nat → Nat
  | [] => 0
  | a :: as => (m.read a).toNat + 256 * m.readAll as

/-- `MemWrite` (R13, R70): the low bytes of v at the addresses, the least significant first. -/
def Memory.writeAll (m : Memory) (v : Nat) : List Nat → Memory
  | [] => m
  | a :: as => (m.write a (BitVec.ofNat 8 v)).writeAll (v / 256) as

/-- The form holds: addresses strictly rising and below 2^32, and no byte 0 listed. -/
def cellsWf : List Host.Cell → Bool
  | [] => true
  | (a, b) :: t => decide (a < 2 ^ 32) && (b != 0) && t.all (fun c => decide (a < c.1)) && cellsWf t

/-- Strictly rising and below 2^32. -/
def addrsWf : List Nat → Bool
  | [] => true
  | a :: t => decide (a < 2 ^ 32) && t.all (fun c => decide (a < c)) && addrsWf t

/-- The canonical form of memory. -/
def Memory.wf (m : Memory) : Bool := cellsWf m.cells && addrsWf m.npxStored

end Sys2Proof.Machine
end

