-- ==== Sys2Proof/Machine/Ops.lean ====
section
/-! DEFINITION. The shared operations of all instructions: the register stack (spec/40_numerics_common.md R147 to R156),
the instruction skeleton with its host checks (R176), raising and entering an interrupt (spec/60_exceptions.md R410 to
R423), and the effect of interrupt 9 (R413). -/

namespace Sys2Proof.Machine

/-- One step's outcome over this machine. -/
abbrev Outcome := Host.Outcome State Fault Refusal

/-- Eight things by physical register number. -/
def vec8 {α : Type} (f : Idx → α) : Vector α 8 := #v[f 0, f 1, f 2, f 3, f 4, f 5, f 6, f 7]

/-! The register stack. -/

/-- `phys(i)`: the physical number of ST(i) (R22). -/
def Npx.phys (x : Npx) (i : Idx) : Idx := x.sw.top + i

/-- R[k]. -/
def Npx.reg (x : Npx) (k : Idx) : Ext := x.regs[k.toNat]'k.isLt

/-- TAG[k]. -/
def Npx.tag (x : Npx) (k : Idx) : Tag := x.tags[k.toNat]'k.isLt

/-- ST(i) (R12). -/
def Npx.st (x : Npx) (i : Idx) : Ext := x.reg (x.phys i)

/-- `empty(i)` (R147). -/
def Npx.empty (x : Npx) (i : Idx) : Bool := x.tag (x.phys i) == .empty

/-- The register a push would load is not empty (R153). -/
def Npx.full (x : Npx) : Bool := x.tag (x.sw.top - 1) != .empty

/-- R[k] alone: the tag stays. -/
def Npx.setRegRaw (x : Npx) (k : Idx) (v : Ext) : Npx := { x with regs := x.regs.set k.toNat v k.isLt }

/-- TAG[k]. -/
def Npx.setTag (x : Npx) (k : Idx) (t : Tag) : Npx := { x with tags := x.tags.set k.toNat t k.isLt }

/-- `R[k] <- v` with its tag (R152). -/
def Npx.setReg (x : Npx) (k : Idx) (v : Ext) : Npx := (x.setRegRaw k v).setTag k (tagOf v)

/-- The status word replaced. -/
def Npx.withSw (x : Npx) (w : StatusWord) : Npx := { x with sw := w }

/-- TOP (R29). -/
def Npx.withTop (x : Npx) (t : Idx) : Npx := x.withSw (x.sw.withTop t)

/-- `push(v)` once the stack is known to have room, or in a masked overflow (R22, R153). -/
def Npx.push (x : Npx) (v : Ext) : Npx := (x.withTop (x.sw.top - 1)).setReg (x.sw.top - 1) v

/-- `pop()` (R154). -/
def Npx.pop (x : Npx) : Npx := (x.setTag x.sw.top .empty).withTop (x.sw.top + 1)

/-- n pops. -/
def Npx.pops : Nat → Npx → Npx
  | 0, x => x
  | n + 1, x => Npx.pops n x.pop

/-- The flags, SF, ES, B and C1 of a result (R170, R171, R177). -/
def Npx.note {α : Type} (x : Npx) (n : Nat) (r : Result α) : Npx :=
  x.withSw ((x.sw.signal x.cw r.signals r.sf).applyC1 n r.c1)

/-- `undef_cc()` (R177). -/
def Npx.undefCc (x : Npx) (n : Nat) : Npx := x.withSw (x.sw.undefCc n)

/-- All four condition-code bits drawn (spec/46_processor_control.md R320 f). -/
def Npx.undefAll (x : Npx) (n : Nat) : Npx := x.withSw (x.sw.undefAll n)

/-- The end of an instruction with a register destination: flags and C1, the result into R[k] if there is one, then the
pops (R173, R174). C3, C2, C0 are left to the caller. -/
def Npx.deliverTo (x : Npx) (n : Nat) (k : Idx) (pops : Nat) (r : Result Ext) : Npx :=
  match r.val with
  | none => x.note n r
  | some v => ((x.note n r).setReg k v).pops pops

/-- The end of an instruction that pushes its result. -/
def Npx.deliverPush (x : Npx) (n : Nat) (r : Result Ext) : Npx :=
  match r.val with
  | none => x.note n r
  | some v => (x.note n r).push v

/-- The end of an instruction that replaces ST(0) by the first result and pushes the second. -/
def Npx.deliverPair (x : Npx) (n : Nat) (r : Result (Ext × Ext)) : Npx :=
  match r.val with
  | none => x.note n r
  | some v => ((x.note n r).setReg x.sw.top v.1).push v.2

/-! Interrupts. -/

/-- `raise Interrupt(n)` at an instruction not yet executed (R14, R410 to R412, R423): only the record handed to the
host changes; its return address is the first byte of the instruction, prefixes included. -/
def State.raise (s : State) (v : InterruptVector) : State :=
  { s with cpu := { s.cpu with interrupt := some { vector := v, sel := s.cpu.cs.sel, off := s.cpu.eip } } }

/-- The host's handler for a vector (R423, log 28). -/
def Cpu.handler (c : Cpu) : InterruptVector → Option HandlerEntry
  | .v7 => c.handler7
  | .v9 => c.handler9
  | .v13 => c.handler13
  | .v16 => c.handler16

/-- The host enters the handler of a raised interrupt (R423, spec/92_eei_decisions.md D32): CS:EIP at the handler; no
handler ends the run. DESIGN CHOICE (log 28): the mode and the default operand and address sizes stay as they were, also
where the handler's CS is another segment. -/
def State.enterHandler (s : State) (t : Interrupt) : Outcome :=
  match s.cpu.handler t.vector with
  | none => .refused .noHandler
  | some h => .next { s with cpu := { s.cpu with cs := h.cs, eip := h.off, interrupt := none, taken := some t } }

/-- The instructions interrupt 16 spares: FNINIT, FNCLEX, FNSTSW, FNSTSW AX, FNSTENV, FNSAVE, FNSTCW (R411). -/
def exemptFrom16 : Instr → Bool
  | .finit _ | .fclex _ | .fstswM16 _ _ | .fstswAx _ | .fstenv _ _ | .fsave _ _ | .fstcw _ _ => true
  | _ => false

/-- The instructions that leave FIP, FDP and FOP as they were when they start (spec/10_state.md R45), and the legacy
no-operations, which change no state (spec/46_processor_control.md R337). -/
def keepsPointers : Instr → Bool
  | .finit _ | .fclex _ | .fldcw _ _ | .fstcw _ _ | .fstswM16 _ _ | .fstswAx _ | .fstenv _ _ | .fldenv _ _ | .fsave _ _
  | .frstor _ _ | .feni _ | .fdisi _ | .fsetpm _ => true
  | _ => false

/-- The host's checks before an ESC instruction, in order (R414): interrupt 7, 16, 13. -/
def hostCheck (i : Instr) (o : Option Operand) (s : State) : Option InterruptVector :=
  if s.cpu.em || s.cpu.ts then some .v7
  else if s.npx.sw.es && !exemptFrom16 i then some .v16
  else match o with
    | none => none
    | some a => if a.limitFault then some .v13 else none

/-- The linear form of a pointer that the CPU saves (R44, log 14): selector * 16 + offset in real-address and
virtual-8086 mode (PRESUMED, log 34), a free value in protected mode. -/
def linearForm (m : Mode) (sel : Word) (off : DWord) (free : DWord) : DWord :=
  match m with
  | .protectedMode => free
  | .realMode | .virtual86 => sel.setWidth 32 * 16 + off

/-- A pointer of 80 free bits. -/
def Pointer.ofBits (v : BitVec 80) : Pointer :=
  { sel := v.extractLsb' 64 16, off := v.extractLsb' 32 32, lin := v.extractLsb' 0 32 }

/-- The address an instruction's FIP records: its first byte (R44, R45). -/
def State.codePointer (s : State) : Pointer :=
  { sel := s.cpu.cs.sel, off := s.cpu.eip,
    lin := linearForm s.cpu.mode s.cpu.cs.sel s.cpu.eip (Config.draw 32 .codeLinear s.draws) }

/-- The address FDP records: the operand's, or a free value (R46). -/
def State.dataPointer (s : State) : Option Operand → Pointer
  | none => Pointer.ofBits (Config.draw 80 .dataPointer s.draws)
  | some o =>
    { sel := o.seg.sel, off := o.off,
      lin := linearForm s.cpu.mode o.seg.sel o.off (Config.draw 32 .dataLinear s.draws) }

/-- The NPX with FIP, FOP and FDP of the instruction that starts, unless it is one that leaves them (R45, R176 step 2). -/
def State.started (s : State) (i : Instr) (o : Option Operand) : Npx :=
  if keepsPointers i then s.npx
  else { s.npx with fip := s.codePointer, fop := i.fop, fdp := s.dataPointer o }

/-- The end of an instruction that ran: the NPX it leaves, and `pc <- pc + length` (R24, R176 step 6). -/
def State.complete (s : State) (i : Instr) (x : Npx) : State :=
  { s with npx := x, cpu := { s.cpu with eip := s.cpu.eip + BitVec.ofNat 32 i.length }, draws := s.draws + 1 }

/-- The NPX after interrupt 9: any value but CW (R413, log 29). -/
def State.overrunNpx (s : State) : Npx :=
  { cw := s.npx.cw,
    sw := StatusWord.ofBits (Config.draw 16 .overrunStatus s.draws),
    regs := vec8 fun k => Config.draw 80 (.overrunRegister k.toNat) s.draws,
    tags := vec8 fun k => Tag.ofBits ((Config.draw 16 .overrunTags s.draws).extractLsb' (2 * k.toNat) 2),
    fip := Pointer.ofBits (Config.draw 80 .overrunCodePointer s.draws),
    fdp := Pointer.ofBits (Config.draw 80 .overrunDataPointer s.draws),
    fop := Config.draw 11 .overrunOpcode s.draws }

/-- Interrupt 9 during an operand's transfer (R413, log 29): the NPX any value but CW, the return address any value, and
each accessible byte of an operand being stored any value. -/
def State.segmentOverrun (s : State) (stored : List Nat) : State :=
  let r : BitVec 48 := Config.draw 48 .overrunReturn s.draws
  { s with
    npx := s.overrunNpx,
    cpu := { s.cpu with
      interrupt := some { vector := .v9, sel := r.extractLsb' 32 16, off := r.extractLsb' 0 32 } },
    mem := stored.foldl (fun m a => m.write a (Config.draw 8 (.overrunByte a) s.draws)) s.mem,
    draws := s.draws + 1, overrun := true }

/-- The addresses of an operand's accessible bytes. -/
def Cpu.accessibleAddrs (c : Cpu) (o : Operand) (write : Bool) : List Nat :=
  ((List.range o.bytes).filter fun k => o.seg.contains (o.offset k) && c.accessible write (o.linear k)).map o.linear

/-! The skeleton (R176). -/

/-- Steps 1 and 2: the host's checks, its own fault on the operand's segment (R93), then the pointers, then the rest of
the instruction. -/
def startEsc (i : Instr) (o : Option Operand) (s : State) (rest : Npx → Outcome) : Outcome :=
  match hostCheck i o s with
  | some v => .next (s.raise v)
  | none => if o.any Operand.segmentFault then .fault .hostAccess else rest (s.started i o)

/-- Step 3: the operand is read, or the transfer fails. -/
def readOperand (o : Operand) (s : State) (rest : Nat → Outcome) : Outcome :=
  match s.cpu.transfer o false with
  | .ok => rest (s.mem.readAll o.addrs)
  | .device => .refused .deviceOperand
  | .overrun => .next (s.segmentOverrun [])
  | .hostFault => .fault .hostAccess

/-- Step 5: the operand is written, or the transfer fails; `s` is the state as the instruction started, `after` the one
it leaves but for the write. -/
def writeOperand (o : Operand) (s : State) (v : Nat) (after : State) : Outcome :=
  match s.cpu.transfer o true with
  | .ok => .next { after with mem := s.mem.writeAll v o.addrs }
  | .device => .refused .deviceOperand
  | .overrun => .next (s.segmentOverrun (s.cpu.accessibleAddrs o true))
  | .hostFault => .fault .hostAccess

/-- An ESC instruction without a memory operand. -/
def runStack (i : Instr) (s : State) (f : Npx → Npx) : Outcome :=
  startEsc i none s fun x => .next (s.complete i (f x))

/-- An ESC instruction that reads n bytes at m. -/
def runLoad (i : Instr) (m : MemOperand) (n : Nat) (s : State) (f : Nat → Npx → Npx) : Outcome :=
  let o := s.cpu.operand i.prefixes m n
  startEsc i (some o) s fun x => readOperand o s fun v => .next (s.complete i (f v x))

/-- An ESC instruction that writes n bytes at m: `f` gives the value, none when it stores nothing, and the NPX. -/
def runStore (i : Instr) (m : MemOperand) (n : Nat) (s : State) (f : Npx → Option Nat × Npx) : Outcome :=
  let o := s.cpu.operand i.prefixes m n
  startEsc i (some o) s fun x =>
    match (f x).1 with
    | none => .next (s.complete i (f x).2)
    | some v => writeOperand o s v (s.complete i (f x).2)

/-! The reset pulse. -/

/-- A RESETIN pulse on a running machine (spec/70_reset_and_hazards.md R450, log 44): the NPX, the host and the bus unit
at their reset values, the data registers and pointers any value, memory as it was. -/
def State.hardReset (s : State) : State :=
  { State.reset with
    npx := { Npx.reset with
      regs := vec8 fun k => Config.draw 80 (.resetRegister k.toNat) s.draws,
      fip := Pointer.ofBits (Config.draw 80 .resetCodePointer s.draws),
      fdp := Pointer.ofBits (Config.draw 80 .resetDataPointer s.draws),
      fop := Config.draw 11 .resetOpcode s.draws },
    mem := s.mem, draws := s.draws + 1,
    cpu := { Cpu.reset with
      blocked := s.cpu.blocked, handler7 := s.cpu.handler7, handler9 := s.cpu.handler9,
      handler13 := s.cpu.handler13, handler16 := s.cpu.handler16 } }

end Sys2Proof.Machine
end

