-- ==== Sys2Proof/Machine/Comparison.lean ====
section
/-! DEFINITION. FCOM, FCOMP, FCOMPP, FICOM, FICOMP, FTST, FUCOM, FUCOMP, FUCOMPP, FXAM: spec/42_comparison.md. -/

namespace Sys2Proof.Machine

/-- C3, C2, C0. -/
structure CompareCode where
  c3 : Bool
  c2 : Bool
  c0 : Bool
deriving DecidableEq, Repr

/-- Unordered: 1 1 1 (spec/10_state.md R33). -/
def CompareCode.unordered : CompareCode := { c3 := true, c2 := true, c0 := true }

/-- The order of two operands that are finite or infinite (R230 step 5). `fixed` puts the infinities beyond every finite
number, so one comparison serves the affine order. -/
def compareValues (x y : Ext) : CompareCode :=
  if fixed y < fixed x then { c3 := false, c2 := false, c0 := false }
  else if fixed x < fixed y then { c3 := false, c2 := false, c0 := true }
  else { c3 := true, c2 := false, c0 := false }

/-- `compare` (R230) of nonempty operands: x is ST(0), y the other; `ordered` is false for the FUCOM family. -/
def compareOperands (cw : ControlWord) (ordered : Bool) (x y : Operand80) : Result CompareCode :=
  let bad (a : Ext) : Bool :=
    classOf a == .unsupported || classOf a == .snan || (ordered && classOf a == .qnan)
  if bad x.x || bad y.x then .invalid cw .unordered
  else if classOf x.x = .qnan ∨ classOf y.x = .qnan then .ok .unordered
  else .denormal cw (x.denormal || y.denormal) (.ok (compareValues x.x y.x))

/-- A register operand: its pattern, and whether it is of the denormal class (spec/44_arithmetic.md R261). -/
def Npx.operand (x : Npx) (i : Idx) : Operand80 := { x := x.st i, denormal := classOf (x.st i) == .denormal }

/-- The end of a comparison: the code and the pops, or drawn bits when it ends by an unmasked exception (R230). -/
def Npx.compared (x : Npx) (n pops : Nat) (r : Result CompareCode) : Npx :=
  match r.val with
  | none => (x.note n r).undefCc n
  | some c => ((x.note n r).withSw ((x.note n r).sw.withCc c.c3 c.c2 c.c0)).pops pops

/-- ST(0) compared with y; `empties` says that a register operand is empty (R230 step 1). -/
def Npx.compareWith (x : Npx) (n pops : Nat) (ordered empties : Bool) (y : Operand80) : Npx :=
  x.compared n pops
    (if empties then .underflow x.cw .unordered else compareOperands x.cw ordered (x.operand 0) y)

/-- A comparison of ST(0) with ST(i). -/
def compareReg (instr : Instr) (i : Idx) (ordered : Bool) (pops : Nat) (s : State) : Outcome :=
  runStack instr s fun x => x.compareWith s.draws pops ordered (x.empty 0 || x.empty i) (x.operand i)

/-- A comparison of ST(0) with a memory operand; `fetch` converts its number (R231, R238). -/
def compareMem (instr : Instr) (m : MemOperand) (bytes : Nat) (fetch : Nat → Operand80) (pops : Nat) (s : State) : Outcome :=
  runLoad instr m bytes s fun v x => x.compareWith s.draws pops true (x.empty 0) (fetch v)

/-- An integer operand of n bytes: never denormal (spec/44_arithmetic.md R261). -/
def intOperand (bytes v : Nat) : Operand80 := { x := intToExt (8 * bytes) v, denormal := false }

/-- FCOM m32r (R231). -/
def execFcomM32r (p : List PrefixByte) (m : MemOperand) (s : State) : Outcome :=
  compareMem (.fcomM32r p m) m 4 (widen single) 0 s

/-- FCOMP m32r (R234). -/
def execFcompM32r (p : List PrefixByte) (m : MemOperand) (s : State) : Outcome :=
  compareMem (.fcompM32r p m) m 4 (widen single) 1 s

/-- FCOM m64r (R232). -/
def execFcomM64r (p : List PrefixByte) (m : MemOperand) (s : State) : Outcome :=
  compareMem (.fcomM64r p m) m 8 (widen double) 0 s

/-- FCOMP m64r (R235). -/
def execFcompM64r (p : List PrefixByte) (m : MemOperand) (s : State) : Outcome :=
  compareMem (.fcompM64r p m) m 8 (widen double) 1 s

/-- FICOM m16i (R238). -/
def execFicomM16i (p : List PrefixByte) (m : MemOperand) (s : State) : Outcome :=
  compareMem (.ficomM16i p m) m 2 (intOperand 2) 0 s

/-- FICOM m32i (R239). -/
def execFicomM32i (p : List PrefixByte) (m : MemOperand) (s : State) : Outcome :=
  compareMem (.ficomM32i p m) m 4 (intOperand 4) 0 s

/-- FICOMP m16i (R240). -/
def execFicompM16i (p : List PrefixByte) (m : MemOperand) (s : State) : Outcome :=
  compareMem (.ficompM16i p m) m 2 (intOperand 2) 1 s

/-- FICOMP m32i (R241). -/
def execFicompM32i (p : List PrefixByte) (m : MemOperand) (s : State) : Outcome :=
  compareMem (.ficompM32i p m) m 4 (intOperand 4) 1 s

/-- FCOM ST(i) (R233). -/
def execFcomSti (p : List PrefixByte) (i : Idx) (s : State) : Outcome :=
  compareReg (.fcomSti p i) i true 0 s

/-- FCOMP ST(i) (R236). -/
def execFcompSti (p : List PrefixByte) (i : Idx) (s : State) : Outcome :=
  compareReg (.fcompSti p i) i true 1 s

/-- FCOMPP (R237). -/
def execFcompp (p : List PrefixByte) (s : State) : Outcome :=
  compareReg (.fcompp p) 1 true 2 s

/-- FTST (R242): the comparand is +0.0. -/
def execFtst (p : List PrefixByte) (s : State) : Outcome :=
  runStack (.ftst p) s fun x => x.compareWith s.draws 0 true (x.empty 0) { x := zeroOf false, denormal := false }

/-- FUCOM ST(i) (R243). -/
def execFucom (p : List PrefixByte) (i : Idx) (s : State) : Outcome :=
  compareReg (.fucom p i) i false 0 s

/-- FUCOMP ST(i) (R244). -/
def execFucomp (p : List PrefixByte) (i : Idx) (s : State) : Outcome :=
  compareReg (.fucomp p i) i false 1 s

/-- FUCOMPP (R245). -/
def execFucompp (p : List PrefixByte) (s : State) : Outcome :=
  compareReg (.fucompp p) 1 false 2 s

/-- The class code of FXAM, C3 C2 C0 (R246, spec/10_state.md R34). -/
def xamCode : Class → CompareCode
  | .unsupported => { c3 := false, c2 := false, c0 := false }
  | .snan | .qnan => { c3 := false, c2 := false, c0 := true }
  | .normal => { c3 := false, c2 := true, c0 := false }
  | .infinity => { c3 := false, c2 := true, c0 := true }
  | .zero => { c3 := true, c2 := false, c0 := false }
  | .denormal => { c3 := true, c2 := true, c0 := false }

/-- FXAM's effect (R246): the code of an empty register is 1 0 1; C1 is bit 79, empty or not. -/
def Npx.fxam (x : Npx) : Npx :=
  let c := if x.empty 0 then { c3 := true, c2 := false, c0 := true } else xamCode (classOf (x.st 0))
  x.withSw ((x.sw.withCc c.c3 c.c2 c.c0).withC1 (signOf (x.st 0)))

/-- FXAM (R246). -/
def execFxam (p : List PrefixByte) (s : State) : Outcome :=
  runStack (.fxam p) s fun x => x.fxam

end Sys2Proof.Machine
end

