-- ==== Sys2Proof/Machine/Arithmetic.lean ====
section
/-! DEFINITION. FADD, FSUB, FSUBR, FMUL, FDIV, FDIVR in all forms, FSQRT, FSCALE, FPREM, FPREM1, FRNDINT, FXTRACT, FABS,
FCHS: spec/44_arithmetic.md. -/

namespace Sys2Proof.Machine

/-- `op` of R262. -/
inductive ArithOp where
  | add | sub | mul | div
deriving DecidableEq, Repr

/-- What the table of R263 gives for two operands that are not NaNs and not unsupported. -/
inductive Exact where
  | indeterminate
  | zeroDivide
  | zero (s : Bool)
  | inf (s : Bool)
  | fin (s : Bool) (v : Mag)
deriving DecidableEq, Repr

/-- A pattern with its sign inverted. -/
def negate (x : Ext) : Ext := x ^^^ (1 <<< 79)

/-- The rows of addition (R263); finite operands are summed exactly as multiples of 2^-16445. -/
def exactAdd (rc : BitVec 2) (a b : Ext) : Exact :=
  if classOf a = .infinity ∧ classOf b = .infinity then
    if signOf a = signOf b then .inf (signOf a) else .indeterminate
  else if classOf a = .infinity then .inf (signOf a)
  else if classOf b = .infinity then .inf (signOf b)
  else if classOf a = .zero ∧ classOf b = .zero then
    .zero (if signOf a = signOf b then signOf a else rc == 1)
  else if fixed a + fixed b = 0 then .zero (rc == 1)
  else .fin (decide (fixed a + fixed b < 0)) { m := (fixed a + fixed b).natAbs, e := -16445, sticky := false }

/-- The rows of multiplication (R263). -/
def exactMul (a b : Ext) : Exact :=
  let s := signOf a != signOf b
  if (classOf a = .infinity ∧ classOf b = .zero) ∨ (classOf a = .zero ∧ classOf b = .infinity) then .indeterminate
  else if classOf a = .infinity ∨ classOf b = .infinity then .inf s
  else if classOf a = .zero ∨ classOf b = .zero then .zero s
  else .fin s (mulMag (magOf a) (magOf b))

/-- The rows of division (R263, R264). -/
def exactDiv (a b : Ext) : Exact :=
  let s := signOf a != signOf b
  if (classOf a = .infinity ∧ classOf b = .infinity) ∨ (classOf a = .zero ∧ classOf b = .zero) then .indeterminate
  else if classOf a = .infinity then .inf s
  else if classOf b = .infinity then .zero s
  else if classOf b = .zero then .zeroDivide
  else if classOf a = .zero then .zero s
  else .fin s (divMag (magOf a) (magOf b))

/-- The table of R263. -/
def exactOf (op : ArithOp) (rc : BitVec 2) (a b : Ext) : Exact :=
  match op with
  | .add => exactAdd rc a b
  | .sub => exactAdd rc a (negate b)
  | .mul => exactMul a b
  | .div => exactDiv a b

/-- Step 7 of R262, and the responses of steps 4 and 6. -/
def exactResult (cw : ControlWord) (p : Nat) (sgn : Bool) (e : Exact) : Result Ext :=
  match e with
  | .indeterminate => .invalid cw qnanIndef
  | .zeroDivide => .zeroDivide cw (infinity sgn)
  | .zero s => .ok (zeroOf s)
  | .inf s => .ok (infinity s)
  | .fin s v => deliver cw p s v

/-- Steps 2 to 7 of `binop` (R262): L op R in precision p, the operands not empty. -/
def binop (cw : ControlWord) (op : ArithOp) (p : Nat) (l r : Operand80) : Result Ext :=
  let e := exactOf op cw.rc l.x r.x
  Result.twoOperands cw l.x r.x
    (if e = .indeterminate then .invalid cw qnanIndef
     else .denormal cw (l.denormal || r.denormal) (exactResult cw p (signOf l.x != signOf r.x) e))

/-- `binop(op, L, R, k, pops)` on the NPX (R262); `empties` says that a register operand is empty. -/
def Npx.arith (x : Npx) (n : Nat) (op : ArithOp) (empties : Bool) (l r : Operand80) (k : Idx) (pops : Nat) : Npx :=
  (x.deliverTo n k pops
    (if empties then .underflow x.cw qnanIndef else binop x.cw op (precisionOf x.cw.pc) l r)).undefCc n

/-- An instruction that computes in the precision of CW.PC is refused while PC = 01 (spec/10_state.md R40,
spec/93_implementation_defined.md U4). DESIGN CHOICE (log 49): R40 and U4 do not say where in the instruction; here it is at
the start of R176's step 4, after the host's checks and the memory operand's transfer, so that interrupt 9 and the host's
own fault come first, and before the tests of the stack and the operands. -/
def withPrecision (x : Npx) (rest : Outcome) : Outcome :=
  if x.cw.pc = 1 then .refused .reservedPrecision else rest

/-- A memory form (R265): `ST(0) op mem`, or `mem op ST(0)` when `rev` (R = 1). -/
def arithMem (i : Instr) (m : MemOperand) (bytes : Nat) (fetch : Nat → Operand80) (op : ArithOp) (rev : Bool) (s : State) :
    Outcome :=
  let o := s.cpu.operand i.prefixes m bytes
  startEsc i (some o) s fun x => readOperand o s fun v => withPrecision x <|
    .next (s.complete i
      (if rev then x.arith s.draws op (x.empty 0) (fetch v) (x.operand 0) (x.phys 0) 0
       else x.arith s.draws op (x.empty 0) (x.operand 0) (fetch v) (x.phys 0) 0))

/-- A register form (R265): `ST(l) op ST(r)` into ST(d), then the pops. -/
def arithReg (i : Instr) (op : ArithOp) (l r d : Idx) (pops : Nat) (s : State) : Outcome :=
  startEsc i none s fun x => withPrecision x <|
    .next (s.complete i
      (x.arith s.draws op (x.empty l || x.empty r) (x.operand l) (x.operand r) (x.phys d) pops))

/-- FADD m32r (R266). -/
def execFaddM32r (p : List PrefixByte) (m : MemOperand) (s : State) : Outcome :=
  arithMem (.faddM32r p m) m 4 (widen single) .add false s

/-- FADD m64r (R266). -/
def execFaddM64r (p : List PrefixByte) (m : MemOperand) (s : State) : Outcome :=
  arithMem (.faddM64r p m) m 8 (widen double) .add false s

/-- FIADD m16i (R268). -/
def execFiaddM16i (p : List PrefixByte) (m : MemOperand) (s : State) : Outcome :=
  arithMem (.fiaddM16i p m) m 2 (intOperand 2) .add false s

/-- FIADD m32i (R268). -/
def execFiaddM32i (p : List PrefixByte) (m : MemOperand) (s : State) : Outcome :=
  arithMem (.fiaddM32i p m) m 4 (intOperand 4) .add false s

/-- FADD ST, ST(i) (R266): `ST(0) <- ST(0) op ST(i)`. -/
def execFaddStSti (p : List PrefixByte) (i : Idx) (s : State) : Outcome :=
  arithReg (.faddStSti p i) .add 0 i 0 0 s

/-- FADD ST(i), ST (R266): `ST(i) <- ST(i) op ST(0)`. -/
def execFaddStiSt (p : List PrefixByte) (i : Idx) (s : State) : Outcome :=
  arithReg (.faddStiSt p i) .add i 0 i 0 s

/-- FADDP ST(i), ST (R267): `ST(i) <- ST(i) op ST(0)`, then pop. -/
def execFaddp (p : List PrefixByte) (i : Idx) (s : State) : Outcome :=
  arithReg (.faddp p i) .add i 0 i 1 s

/-- FMUL m32r (R275). -/
def execFmulM32r (p : List PrefixByte) (m : MemOperand) (s : State) : Outcome :=
  arithMem (.fmulM32r p m) m 4 (widen single) .mul false s

/-- FMUL m64r (R275). -/
def execFmulM64r (p : List PrefixByte) (m : MemOperand) (s : State) : Outcome :=
  arithMem (.fmulM64r p m) m 8 (widen double) .mul false s

/-- FIMUL m16i (R277). -/
def execFimulM16i (p : List PrefixByte) (m : MemOperand) (s : State) : Outcome :=
  arithMem (.fimulM16i p m) m 2 (intOperand 2) .mul false s

/-- FIMUL m32i (R277). -/
def execFimulM32i (p : List PrefixByte) (m : MemOperand) (s : State) : Outcome :=
  arithMem (.fimulM32i p m) m 4 (intOperand 4) .mul false s

/-- FMUL ST, ST(i) (R275): `ST(0) <- ST(0) op ST(i)`. -/
def execFmulStSti (p : List PrefixByte) (i : Idx) (s : State) : Outcome :=
  arithReg (.fmulStSti p i) .mul 0 i 0 0 s

/-- FMUL ST(i), ST (R275): `ST(i) <- ST(i) op ST(0)`. -/
def execFmulStiSt (p : List PrefixByte) (i : Idx) (s : State) : Outcome :=
  arithReg (.fmulStiSt p i) .mul i 0 i 0 s

/-- FMULP ST(i), ST (R276): `ST(i) <- ST(i) op ST(0)`, then pop. -/
def execFmulp (p : List PrefixByte) (i : Idx) (s : State) : Outcome :=
  arithReg (.fmulp p i) .mul i 0 i 1 s

/-- FSUB m32r (R269). -/
def execFsubM32r (p : List PrefixByte) (m : MemOperand) (s : State) : Outcome :=
  arithMem (.fsubM32r p m) m 4 (widen single) .sub false s

/-- FSUB m64r (R269). -/
def execFsubM64r (p : List PrefixByte) (m : MemOperand) (s : State) : Outcome :=
  arithMem (.fsubM64r p m) m 8 (widen double) .sub false s

/-- FISUB m16i (R271). -/
def execFisubM16i (p : List PrefixByte) (m : MemOperand) (s : State) : Outcome :=
  arithMem (.fisubM16i p m) m 2 (intOperand 2) .sub false s

/-- FISUB m32i (R271). -/
def execFisubM32i (p : List PrefixByte) (m : MemOperand) (s : State) : Outcome :=
  arithMem (.fisubM32i p m) m 4 (intOperand 4) .sub false s

/-- FSUB ST, ST(i) (R269): `ST(0) <- ST(0) op ST(i)`. -/
def execFsubStSti (p : List PrefixByte) (i : Idx) (s : State) : Outcome :=
  arithReg (.fsubStSti p i) .sub 0 i 0 0 s

/-- FSUB ST(i), ST (R269): `ST(i) <- ST(i) op ST(0)`. -/
def execFsubStiSt (p : List PrefixByte) (i : Idx) (s : State) : Outcome :=
  arithReg (.fsubStiSt p i) .sub i 0 i 0 s

/-- FSUBP ST(i), ST (R270): `ST(i) <- ST(i) op ST(0)`, then pop. -/
def execFsubp (p : List PrefixByte) (i : Idx) (s : State) : Outcome :=
  arithReg (.fsubp p i) .sub i 0 i 1 s

/-- FSUBR m32r (R272). -/
def execFsubrM32r (p : List PrefixByte) (m : MemOperand) (s : State) : Outcome :=
  arithMem (.fsubrM32r p m) m 4 (widen single) .sub true s

/-- FSUBR m64r (R272). -/
def execFsubrM64r (p : List PrefixByte) (m : MemOperand) (s : State) : Outcome :=
  arithMem (.fsubrM64r p m) m 8 (widen double) .sub true s

/-- FISUBR m16i (R274). -/
def execFisubrM16i (p : List PrefixByte) (m : MemOperand) (s : State) : Outcome :=
  arithMem (.fisubrM16i p m) m 2 (intOperand 2) .sub true s

/-- FISUBR m32i (R274). -/
def execFisubrM32i (p : List PrefixByte) (m : MemOperand) (s : State) : Outcome :=
  arithMem (.fisubrM32i p m) m 4 (intOperand 4) .sub true s

/-- FSUBR ST, ST(i) (R272): `ST(0) <- ST(i) op ST(0)`. -/
def execFsubrStSti (p : List PrefixByte) (i : Idx) (s : State) : Outcome :=
  arithReg (.fsubrStSti p i) .sub i 0 0 0 s

/-- FSUBR ST(i), ST (R272): `ST(i) <- ST(0) op ST(i)`. -/
def execFsubrStiSt (p : List PrefixByte) (i : Idx) (s : State) : Outcome :=
  arithReg (.fsubrStiSt p i) .sub 0 i i 0 s

/-- FSUBRP ST(i), ST (R273): `ST(i) <- ST(0) op ST(i)`, then pop. -/
def execFsubrp (p : List PrefixByte) (i : Idx) (s : State) : Outcome :=
  arithReg (.fsubrp p i) .sub 0 i i 1 s

/-- FDIV m32r (R278). -/
def execFdivM32r (p : List PrefixByte) (m : MemOperand) (s : State) : Outcome :=
  arithMem (.fdivM32r p m) m 4 (widen single) .div false s

/-- FDIV m64r (R278). -/
def execFdivM64r (p : List PrefixByte) (m : MemOperand) (s : State) : Outcome :=
  arithMem (.fdivM64r p m) m 8 (widen double) .div false s

/-- FIDIV m16i (R280). -/
def execFidivM16i (p : List PrefixByte) (m : MemOperand) (s : State) : Outcome :=
  arithMem (.fidivM16i p m) m 2 (intOperand 2) .div false s

/-- FIDIV m32i (R280). -/
def execFidivM32i (p : List PrefixByte) (m : MemOperand) (s : State) : Outcome :=
  arithMem (.fidivM32i p m) m 4 (intOperand 4) .div false s

/-- FDIV ST, ST(i) (R278): `ST(0) <- ST(0) op ST(i)`. -/
def execFdivStSti (p : List PrefixByte) (i : Idx) (s : State) : Outcome :=
  arithReg (.fdivStSti p i) .div 0 i 0 0 s

/-- FDIV ST(i), ST (R278): `ST(i) <- ST(i) op ST(0)`. -/
def execFdivStiSt (p : List PrefixByte) (i : Idx) (s : State) : Outcome :=
  arithReg (.fdivStiSt p i) .div i 0 i 0 s

/-- FDIVP ST(i), ST (R279): `ST(i) <- ST(i) op ST(0)`, then pop. -/
def execFdivp (p : List PrefixByte) (i : Idx) (s : State) : Outcome :=
  arithReg (.fdivp p i) .div i 0 i 1 s

/-- FDIVR m32r (R281). -/
def execFdivrM32r (p : List PrefixByte) (m : MemOperand) (s : State) : Outcome :=
  arithMem (.fdivrM32r p m) m 4 (widen single) .div true s

/-- FDIVR m64r (R281). -/
def execFdivrM64r (p : List PrefixByte) (m : MemOperand) (s : State) : Outcome :=
  arithMem (.fdivrM64r p m) m 8 (widen double) .div true s

/-- FIDIVR m16i (R283). -/
def execFidivrM16i (p : List PrefixByte) (m : MemOperand) (s : State) : Outcome :=
  arithMem (.fidivrM16i p m) m 2 (intOperand 2) .div true s

/-- FIDIVR m32i (R283). -/
def execFidivrM32i (p : List PrefixByte) (m : MemOperand) (s : State) : Outcome :=
  arithMem (.fidivrM32i p m) m 4 (intOperand 4) .div true s

/-- FDIVR ST, ST(i) (R281): `ST(0) <- ST(i) op ST(0)`. -/
def execFdivrStSti (p : List PrefixByte) (i : Idx) (s : State) : Outcome :=
  arithReg (.fdivrStSti p i) .div i 0 0 0 s

/-- FDIVR ST(i), ST (R281): `ST(i) <- ST(0) op ST(i)`. -/
def execFdivrStiSt (p : List PrefixByte) (i : Idx) (s : State) : Outcome :=
  arithReg (.fdivrStiSt p i) .div 0 i i 0 s

/-- FDIVRP ST(i), ST (R282): `ST(i) <- ST(0) op ST(i)`, then pop. -/
def execFdivrp (p : List PrefixByte) (i : Idx) (s : State) : Outcome :=
  arithReg (.fdivrp p i) .div 0 i i 1 s

/-! One-operand instructions. -/

/-- The end of an instruction that replaces ST(0) by a function of it: the stack test, the result, C3, C2, C0 drawn. -/
def Npx.replaceTop (x : Npx) (n : Nat) (f : Ext → Result Ext) : Npx :=
  (x.deliverTo n (x.phys 0) 0 (if x.empty 0 then .underflow x.cw qnanIndef else f (x.st 0))).undefCc n

/-- The square root of ST(0) (R284). -/
def sqrtResult (cw : ControlWord) (x : Ext) : Result Ext :=
  Result.oneOperand cw x
    (if classOf x = .zero then .ok x
     else if signOf x then .invalid cw qnanIndef
     else if classOf x = .infinity then .ok x
     else .denormal cw (classOf x == .denormal) (deliver cw (precisionOf cw.pc) false (sqrtMag (magOf x))))

/-- FSQRT (R284). -/
def execFsqrt (p : List PrefixByte) (s : State) : Outcome :=
  startEsc (.fsqrt p) none s fun x => withPrecision x <|
    .next (s.complete (.fsqrt p) (x.replaceTop s.draws (sqrtResult x.cw)))

/-- ST(0) rounded to an integer by CW.RC (R288); a magnitude of 2^63 or more is an integer already. -/
def rndintResult (cw : ControlWord) (x : Ext) : Result Ext :=
  Result.oneOperand cw x
    (if classOf x = .zero ∨ classOf x = .infinity then .ok x
     else .denormal cw (classOf x == .denormal)
       (if 0 ≤ trueExp x then .ok x
        else
          let r := roundInt cw.rc x
          { signals := { pe := r.inexact }, val := some (encodeNat (signOf x) r.q), c1 := .set r.up }))

/-- FRNDINT (R288). -/
def execFrndint (p : List PrefixByte) (s : State) : Outcome :=
  runStack (.frndint p) s fun x => x.replaceTop s.draws (rndintResult x.cw)

/-- FABS's and FCHS's effect (R290, R291): bit 79 of R[TOP] becomes `b`; no tag is recomputed. -/
def Npx.setSign (x : Npx) (n : Nat) (b : Bool) : Npx :=
  (if x.empty 0 then x.deliverTo n (x.phys 0) 0 (.underflow x.cw qnanIndef)
   else (x.note n (Result.ok ())).setRegRaw (x.phys 0) (BitVec.ofBool b ++ (x.st 0).extractLsb' 0 79)).undefCc n

/-- FABS (R290). -/
def execFabs (p : List PrefixByte) (s : State) : Outcome :=
  runStack (.fabs p) s fun x => x.setSign s.draws false

/-- FCHS (R291). -/
def execFchs (p : List PrefixByte) (s : State) : Outcome :=
  runStack (.fchs p) s fun x => x.setSign s.draws (!signOf (x.st 0))

/-! FSCALE. -/

/-- The magnitude of a finite pattern truncated to an integer, at most 65536: beyond it every scaling ends alike
(R285). -/
def truncClamped (y : Ext) : Nat :=
  if 16 ≤ (magOf y).log2 then 65536 else sig y >>> (-(trueExp y)).toNat

/-- ST(0) scaled by ST(1) (R285). -/
def scaleResult (cw : ControlWord) (x y : Ext) : Result Ext :=
  Result.twoOperands cw x y
    (if (classOf x = .zero ∧ classOf y = .infinity ∧ signOf y = false) ∨
        (classOf x = .infinity ∧ classOf y = .infinity ∧ signOf y = true) then .invalid cw qnanIndef
     else .denormal cw (classOf x == .denormal || classOf y == .denormal)
       (if classOf y = .infinity then .ok (if signOf y then zeroOf (signOf x) else infinity (signOf x))
        else if classOf x = .infinity ∨ classOf x = .zero then .ok x
        else
          let n : Int := if classOf y = .zero then 0 else if signOf y then -(truncClamped y : Int) else truncClamped y
          deliver cw 64 (signOf x) { magOf x with e := (magOf x).e + n }))

/-- FSCALE's effect (R285): ST(1) is not changed. -/
def Npx.fscale (x : Npx) (n : Nat) : Npx :=
  (x.deliverTo n (x.phys 0) 0
    (if x.empty 0 || x.empty 1 then .underflow x.cw qnanIndef else scaleResult x.cw (x.st 0) (x.st 1))).undefCc n

/-- FSCALE (R285). -/
def execFscale (p : List PrefixByte) (s : State) : Outcome :=
  runStack (.fscale p) s fun x => x.fscale s.draws

/-! FPREM and FPREM1. -/

/-- A partial remainder: what it delivers, and C3, C2, C0 (none: drawn, log 31). -/
structure PremOutcome where
  result : Result Ext
  code : Option CompareCode
deriving DecidableEq, Repr

/-- A quotient's code: C3 = Q1, C2 = 0, C0 = Q2 (spec/10_state.md R32); C1 = Q0 is in the result. -/
def quotientCode (q : Nat) : CompareCode := { c3 := q.testBit 1, c2 := false, c0 := q.testBit 2 }

/-- The remainder r * 2^e with a sign, delivered exactly (R286); a zero keeps the sign it is given. -/
def deliverRemainder (cw : ControlWord) (s : Bool) (r : Nat) (e : Int) (c1 : Bool) : Result Ext :=
  if r = 0 then .ok (zeroOf s) c1
  else { deliver cw 64 s { m := r, e := e, sticky := false } with c1 := .set c1 }

/-- The reduction of finite nonzero x by finite nonzero y (R286; `nearest` for FPREM1, R287). Both magnitudes are taken
as multiples of one power of two. -/
def premReduce (cw : ControlWord) (nearest : Bool) (x y : Ext) : PremOutcome :=
  let e := min (trueExp x) (trueExp y)
  let mx := sig x <<< (trueExp x - e).toNat
  let my := sig y <<< (trueExp y - e).toNat
  let d := (magOf x).log2 - (magOf y).log2
  if d < 64 then
    let q := mx / my
    let r := mx % my
    if nearest && (decide (my < 2 * r) || (2 * r == my && q % 2 == 1)) then
      { result := deliverRemainder cw (!signOf x) (my - r) e ((q + 1).testBit 0), code := some (quotientCode (q + 1)) }
    else { result := deliverRemainder cw (signOf x) r e (q.testBit 0), code := some (quotientCode q) }
  else
    let n := 32 + (Config.premStepOffset d.toNat).toNat
    { result := deliverRemainder cw (signOf x) (mx % (my <<< (d.toNat - n))) e false,
      code := some { c3 := false, c2 := true, c0 := false } }

/-- A result of FPREM or FPREM1 that ends without one leaves C1 (R173, log 30). -/
def Result.keepC1OnAbort {α : Type} (r : Result α) : Result α := if r.val.isNone then { r with c1 := .keep } else r

/-- The whole rule of FPREM and FPREM1 for nonempty operands (R286, R287). A masked invalid operation that is no NaN's
leaves C1 0, which R286 does not state (DESIGN CHOICE, log 31). -/
def premOutcome (cw : ControlWord) (nearest : Bool) (x y : Ext) : PremOutcome :=
  if classOf x = .unsupported ∨ classOf y = .unsupported then
    { result := (Result.invalid cw qnanIndef).keepC1OnAbort, code := none }
  else if isNaN x || isNaN y then { result := Result.twoOperands cw x y (.ok x), code := none }
  else if classOf x = .infinity ∨ classOf y = .zero then
    { result := (Result.invalid cw qnanIndef).keepC1OnAbort, code := none }
  else if (classOf x = .denormal ∨ classOf y = .denormal) ∧ cw.dm = false then
    { result := Result.denormalAbort.keepC1OnAbort, code := none }
  else
    let o : PremOutcome :=
      if classOf y = .infinity ∨ classOf x = .zero then { result := .ok x, code := some (quotientCode 0) }
      else premReduce cw nearest x y
    { o with result := o.result.withDenormal (classOf x == .denormal || classOf y == .denormal) }

/-- FPREM's and FPREM1's effect. -/
def Npx.prem (x : Npx) (n : Nat) (nearest : Bool) : Npx :=
  let o : PremOutcome :=
    if x.empty 0 || x.empty 1 then { result := .underflow x.cw qnanIndef, code := none }
    else premOutcome x.cw nearest (x.st 0) (x.st 1)
  let y := x.deliverTo n (x.phys 0) 0 o.result
  match o.code with
  | none => y.undefCc n
  | some c => y.withSw (y.sw.withCc c.c3 c.c2 c.c0)

/-- FPREM (R286). -/
def execFprem (p : List PrefixByte) (s : State) : Outcome :=
  runStack (.fprem p) s fun x => x.prem s.draws false

/-- FPREM1 (R287). -/
def execFprem1 (p : List PrefixByte) (s : State) : Outcome :=
  runStack (.fprem1 p) s fun x => x.prem s.draws true

/-! FXTRACT. -/

/-- A result delivered twice. -/
def Result.twice (r : Result Ext) : Result (Ext × Ext) :=
  { signals := r.signals, sf := r.sf, val := r.val.map fun v => (v, v), c1 := r.c1 }

/-- The exponent and the significand of ST(0) (R289). -/
def xtractResult (cw : ControlWord) (x : Ext) : Result (Ext × Ext) :=
  match classOf x with
  | .unsupported => .invalid cw (qnanIndef, qnanIndef)
  | .snan => .invalid cw (quiet x, quiet x)
  | .qnan => .ok (x, x)
  | .zero => .zeroDivide cw (infinity true, zeroOf (signOf x))
  | .infinity => .ok (infinity false, x)
  | .denormal | .normal =>
    .denormal cw (classOf x == .denormal)
      (.ok (encodeNat (decide ((magOf x).log2 < 0)) (magOf x).log2.natAbs,
        ext (signOf x) 0x3FFF (sig x <<< (63 - (sig x).log2))))

/-- FXTRACT's effect (R289): the source is tested before the destination (D34). -/
def Npx.fxtract (x : Npx) (n : Nat) : Npx :=
  (x.deliverPair n
    (if x.empty 0 then .underflow x.cw (qnanIndef, qnanIndef)
     else if x.full then .overflow x.cw (qnanIndef, qnanIndef)
     else xtractResult x.cw (x.st 0))).undefCc n

/-- FXTRACT (R289). -/
def execFxtract (p : List PrefixByte) (s : State) : Outcome :=
  runStack (.fxtract p) s fun x => x.fxtract s.draws

end Sys2Proof.Machine
end

