-- ==== Sys2Proof/Machine/Constants.lean ====
section
/-! DEFINITION. FLDZ, FLD1, FLDPI, FLDL2T, FLDL2E, FLDLG2, FLDLN2: spec/43_constants.md. -/

namespace Sys2Proof.Machine

/-- A constant rounded by CW.RC: its values under RC = 00 nearest, 01 down, 10 up, 11 chop (R250). -/
def byRounding (rc : BitVec 2) (nearest down up chop : Ext) : Ext :=
  match rc.toNat with
  | 0 => nearest
  | 1 => down
  | 2 => up
  | _ => chop

/-- pi (R253). -/
def constPi (rc : BitVec 2) : Ext :=
  byRounding rc 0x4000C90FDAA22168C235 0x4000C90FDAA22168C234 0x4000C90FDAA22168C235 0x4000C90FDAA22168C234

/-- log2(10) (R254). -/
def constL2t (rc : BitVec 2) : Ext :=
  byRounding rc 0x4000D49A784BCD1B8AFE 0x4000D49A784BCD1B8AFE 0x4000D49A784BCD1B8AFF 0x4000D49A784BCD1B8AFE

/-- log2(e) (R255). -/
def constL2e (rc : BitVec 2) : Ext :=
  byRounding rc 0x3FFFB8AA3B295C17F0BC 0x3FFFB8AA3B295C17F0BB 0x3FFFB8AA3B295C17F0BC 0x3FFFB8AA3B295C17F0BB

/-- log10(2) (R256). -/
def constLg2 (rc : BitVec 2) : Ext :=
  byRounding rc 0x3FFD9A209A84FBCFF799 0x3FFD9A209A84FBCFF798 0x3FFD9A209A84FBCFF799 0x3FFD9A209A84FBCFF798

/-- loge(2) (R257). -/
def constLn2 (rc : BitVec 2) : Ext :=
  byRounding rc 0x3FFEB17217F7D1CF79AC 0x3FFEB17217F7D1CF79AB 0x3FFEB17217F7D1CF79AC 0x3FFEB17217F7D1CF79AB

/-- The push of a constant that depends on CW.RC (R250): no precision exception, C1 = 0 or the stack overflow. -/
def loadConstant (i : Instr) (k : BitVec 2 → Ext) (s : State) : Outcome :=
  runStack i s fun x =>
    (x.deliverPush s.draws (if x.full then .overflow x.cw qnanIndef else .ok (k x.cw.rc))).undefCc s.draws

/-- FLDZ (R251). -/
def execFldz (p : List PrefixByte) (s : State) : Outcome := loadConstant (.fldz p) (fun _ => zeroOf false) s

/-- FLD1 (R252). -/
def execFld1 (p : List PrefixByte) (s : State) : Outcome := loadConstant (.fld1 p) (fun _ => one) s

/-- FLDPI (R253). -/
def execFldpi (p : List PrefixByte) (s : State) : Outcome := loadConstant (.fldpi p) constPi s

/-- FLDL2T (R254). -/
def execFldl2t (p : List PrefixByte) (s : State) : Outcome := loadConstant (.fldl2t p) constL2t s

/-- FLDL2E (R255). -/
def execFldl2e (p : List PrefixByte) (s : State) : Outcome := loadConstant (.fldl2e p) constL2e s

/-- FLDLG2 (R256). -/
def execFldlg2 (p : List PrefixByte) (s : State) : Outcome := loadConstant (.fldlg2 p) constLg2 s

/-- FLDLN2 (R257). -/
def execFldln2 (p : List PrefixByte) (s : State) : Outcome := loadConstant (.fldln2 p) constLn2 s

end Sys2Proof.Machine
end

