-- ==== Sys2Proof/Machine/Control.lean ====
section
/-! DEFINITION. FINIT, FSTSW, FLDCW, FSTCW, FCLEX, FSTENV, FLDENV, FSAVE, FRSTOR, FINCSTP, FDECSTP, FFREE, FNOP, WAIT and
the legacy no-operations: spec/46_processor_control.md; the images of spec/10_state.md R48 to R56. -/

namespace Sys2Proof.Machine

/-! The environment image. -/

/-- The four formats of R48. -/
inductive ImageFormat where
  | protected32 | real32 | protected16 | real16
deriving DecidableEq, Repr

/-- The format that the mode and the instruction's operand size select (R48). -/
def imageFormat (mode : Mode) (wide : Bool) : ImageFormat :=
  match mode with
  | .protectedMode => if wide then .protected32 else .protected16
  | .realMode | .virtual86 => if wide then .real32 else .real16

/-- ENVSIZE (R331). -/
def envSize : ImageFormat → Nat
  | .protected32 | .real32 => 28
  | .protected16 | .real16 => 14

/-- Fields w bits wide laid out in rising addresses (R49). -/
def packFields (w : Nat) : List Nat → Nat
  | [] => 0
  | f :: fs => f % 2 ^ w + 2 ^ w * packFields w fs

/-- The control word as a store returns it: its reserved bits drawn (R41, log 12). -/
def Npx.cwImage (x : Npx) (n : Nat) : Word := x.cw.toBits (Config.draw 5 .controlReserved n)

/-- Reserved field k of an image over a 16-bit low half (R49, log 12). -/
def withReserved (n k : Nat) (low : Word) : Nat := ((Config.draw 16 (.imageReserved k) n : Word) ++ low).toNat

/-- The environment image of `env_store` (R49 to R53). -/
def Npx.envImage (x : Npx) (fmt : ImageFormat) (n : Nat) : Nat :=
  match fmt with
  | .protected32 =>
    packFields 32
      [withReserved n 0 (x.cwImage n), withReserved n 1 x.sw.toBits, withReserved n 2 (tagWord x.tags),
       x.fip.off.toNat, ((0 : BitVec 5) ++ x.fop ++ x.fip.sel : BitVec 32).toNat,
       x.fdp.off.toNat, withReserved n 3 x.fdp.sel]
  | .real32 =>
    packFields 32
      [withReserved n 0 (x.cwImage n), withReserved n 1 x.sw.toBits, withReserved n 2 (tagWord x.tags),
       withReserved n 3 (x.fip.lin.extractLsb' 0 16),
       ((0 : BitVec 4) ++ x.fip.lin.extractLsb' 16 16 ++ (0 : BitVec 1) ++ x.fop : BitVec 32).toNat,
       withReserved n 4 (x.fdp.lin.extractLsb' 0 16),
       ((0 : BitVec 4) ++ x.fdp.lin.extractLsb' 16 16 ++ (0 : BitVec 12) : BitVec 32).toNat]
  | .protected16 =>
    packFields 16
      [(x.cwImage n).toNat, x.sw.toBits.toNat, (tagWord x.tags).toNat,
       (x.fip.off.extractLsb' 0 16).toNat, x.fip.sel.toNat, (x.fdp.off.extractLsb' 0 16).toNat, x.fdp.sel.toNat]
  | .real16 =>
    packFields 16
      [(x.cwImage n).toNat, x.sw.toBits.toNat, (tagWord x.tags).toNat,
       (x.fip.lin.extractLsb' 0 16).toNat,
       (x.fip.lin.extractLsb' 16 4 ++ (0 : BitVec 1) ++ x.fop : BitVec 16).toNat,
       (x.fdp.lin.extractLsb' 0 16).toNat,
       (x.fdp.lin.extractLsb' 16 4 ++ (0 : BitVec 12) : BitVec 16).toNat]

/-- w bits of an image from bit `pos`. -/
def imageBits (image pos w : Nat) : BitVec w := BitVec.ofNat w (image >>> pos)

/-- The bit position of field k of an image, each field 4 bytes in the 32-bit formats and 2 in the 16-bit ones. -/
def fieldPos (fmt : ImageFormat) (k : Nat) : Nat :=
  match fmt with
  | .protected32 | .real32 => 32 * k
  | .protected16 | .real16 => 16 * k

/-- A pointer loaded from fields k and k+1 of an image: the parts the format does not hold are free (R331,
spec/92_eei_decisions.md D20, log 15). -/
def loadPointer (fmt : ImageFormat) (image k : Nat) (free : Pointer) : Pointer :=
  let p := fieldPos fmt k
  match fmt with
  | .protected32 => { sel := imageBits image (p + 32) 16, off := imageBits image p 32, lin := free.lin }
  | .real32 =>
    { free with lin := (imageBits image (p + 32 + 12) 16 ++ imageBits image p 16 : BitVec 32) }
  | .protected16 =>
    { sel := imageBits image (p + 16) 16,
      off := (free.off.extractLsb' 16 16 ++ imageBits image p 16 : BitVec 32), lin := free.lin }
  | .real16 =>
    { free with
      lin := (free.lin.extractLsb' 20 12 ++ (imageBits image (p + 16 + 12) 4 ++ imageBits image p 16 : BitVec 20)
        : BitVec 32) }

/-- FOP loaded from an image (R47, R54). -/
def loadOpcode (fmt : ImageFormat) (image n : Nat) : BitVec 11 :=
  match fmt with
  | .protected32 => imageBits image (32 * 4 + 16) 11
  | .real32 => imageBits image (32 * 4) 11
  | .protected16 => Config.draw 11 .opcodeImage n
  | .real16 => imageBits image (16 * 4) 11

/-- A tag recomputed on a load (R26): a loaded 11b is empty, anything else is the tag of the register's contents. -/
def loadTag (image : BitVec 2) (r : Ext) : Tag := if image = 3 then .empty else tagOf r

/-- `env_load` (R331): CW, SW but ES and B, the tags, and the pointers; ES and B recomputed. -/
def Npx.envLoad (x : Npx) (fmt : ImageFormat) (image n : Nat) : Npx :=
  let cw := ControlWord.ofBits (imageBits image 0 16)
  { x with
    cw := cw,
    sw := (StatusWord.ofBits (imageBits image (fieldPos fmt 1) 16)).refresh cw,
    tags := vec8 fun k => loadTag (imageBits image (fieldPos fmt 2 + 2 * k.toNat) 2) (x.reg k),
    fip := loadPointer fmt image 3 (Pointer.ofBits (Config.draw 80 .codeImage n)),
    fdp := loadPointer fmt image 5 (Pointer.ofBits (Config.draw 80 .dataImage n)),
    fop := loadOpcode fmt image n }

/-- The state of R321: CW, SW, TW and the pointers at their FNINIT values, the data registers unchanged. -/
def Npx.init (x : Npx) : Npx :=
  { cw := ControlWord.init, sw := StatusWord.init, regs := x.regs, tags := Npx.reset.tags,
    fip := Pointer.zero, fdp := Pointer.zero, fop := 0 }

/-- The format of an instruction in a state (R48). -/
def State.format (s : State) (i : Instr) : ImageFormat :=
  imageFormat s.cpu.mode (operandSize32 s.cpu.opSize32 i.prefixes)

/-! Initialization and status. -/

/-- FINIT (R321): exempt from interrupt 16; it ends the effect of interrupt 9 (R413). -/
def execFinit (p : List PrefixByte) (s : State) : Outcome :=
  startEsc (.finit p) none s fun x => .next { s.complete (.finit p) x.init with overrun := false }

/-- FSTSW AX (R322): the upper half of EAX is unchanged. -/
def execFstswAx (p : List PrefixByte) (s : State) : Outcome :=
  startEsc (.fstswAx p) none s fun x =>
    let t := s.complete (.fstswAx p) (x.undefAll s.draws)
    .next { t with cpu := { t.cpu with eax := (t.cpu.eax.extractLsb' 16 16 ++ x.sw.toBits : BitVec 32) } }

/-- FSTSW m16 (R323). -/
def execFstswM16 (p : List PrefixByte) (m : MemOperand) (s : State) : Outcome :=
  runStore (.fstswM16 p m) m 2 s fun x => (some x.sw.toBits.toNat, x.undefAll s.draws)

/-- FLDCW's effect (R324): ES and B follow the new masks. -/
def Npx.loadCw (x : Npx) (n v : Nat) : Npx :=
  ({ x with cw := ControlWord.ofBits (BitVec.ofNat 16 v),
            sw := x.sw.refresh (ControlWord.ofBits (BitVec.ofNat 16 v)) } : Npx).undefAll n

/-- FLDCW (R324). -/
def execFldcw (p : List PrefixByte) (m : MemOperand) (s : State) : Outcome :=
  runLoad (.fldcw p m) m 2 s fun v x => x.loadCw s.draws v

/-- FSTCW (R325). -/
def execFstcw (p : List PrefixByte) (m : MemOperand) (s : State) : Outcome :=
  runStore (.fstcw p m) m 2 s fun x => (some (x.cwImage s.draws).toNat, x.undefAll s.draws)

/-- FCLEX's effect (R326): SW[7:0] and B cleared, TOP kept. -/
def StatusWord.clearExceptions (w : StatusWord) : StatusWord :=
  { w with ie := false, de := false, ze := false, oe := false, ue := false, pe := false, sf := false, es := false,
           b := false }

/-- FCLEX (R326). -/
def execFclex (p : List PrefixByte) (s : State) : Outcome :=
  runStack (.fclex p) s fun x => (x.withSw x.sw.clearExceptions).undefAll s.draws

/-! Environment and state. -/

/-- FSTENV's effect after the store (R327): all six exceptions masked, ES and B clear. -/
def Npx.maskAll (x : Npx) : Npx :=
  { x with cw := { x.cw with im := true, dm := true, zm := true, om := true, um := true, pm := true },
           sw := { x.sw with es := false, b := false } }

/-- FSTENV (R327). -/
def execFstenv (p : List PrefixByte) (m : MemOperand) (s : State) : Outcome :=
  let fmt := s.format (.fstenv p m)
  runStore (.fstenv p m) m (envSize fmt) s fun x =>
    (some (x.envImage fmt s.draws), x.maskAll.undefAll s.draws)

/-- FLDENV (R328). -/
def execFldenv (p : List PrefixByte) (m : MemOperand) (s : State) : Outcome :=
  let fmt := s.format (.fldenv p m)
  runLoad (.fldenv p m) m (envSize fmt) s fun v x => x.envLoad fmt v s.draws

/-- The state image (R56, R329): the environment, then ST(0) to ST(7), empty ones too. -/
def Npx.stateImage (x : Npx) (fmt : ImageFormat) (n : Nat) : Nat :=
  x.envImage fmt n + 2 ^ (8 * envSize fmt) *
    packFields 80 [(x.st 0).toNat, (x.st 1).toNat, (x.st 2).toNat, (x.st 3).toNat, (x.st 4).toNat, (x.st 5).toNat,
      (x.st 6).toNat, (x.st 7).toNat]

/-- FSAVE (R329): then the state of R321. -/
def execFsave (p : List PrefixByte) (m : MemOperand) (s : State) : Outcome :=
  let fmt := s.format (.fsave p m)
  runStore (.fsave p m) m (envSize fmt + 80) s fun x => (some (x.stateImage fmt s.draws), x.init)

/-- FRSTOR's effect (R330): the registers first, in the order of the loaded TOP, then the environment. -/
def Npx.restore (x : Npx) (fmt : ImageFormat) (image n : Nat) : Npx :=
  let top := (StatusWord.ofBits (imageBits image (fieldPos fmt 1) 16)).top
  ({ x with
     regs := vec8 fun k => imageBits image (8 * envSize fmt + 80 * (k - top).toNat) 80 } : Npx).envLoad fmt image n

/-- FRSTOR (R330). -/
def execFrstor (p : List PrefixByte) (m : MemOperand) (s : State) : Outcome :=
  let fmt := s.format (.frstor p m)
  runLoad (.frstor p m) m (envSize fmt + 80) s fun v x => x.restore fmt v s.draws

/-! Stack and miscellaneous. -/

/-- FINCSTP and FDECSTP (R332, R333): TOP moves by d, no tag changes. -/
def Npx.moveTop (x : Npx) (n : Nat) (d : Idx) : Npx :=
  (x.withSw ((x.sw.withTop (x.sw.top + d)).withC1 false)).undefCc n

/-- FINCSTP (R332). -/
def execFincstp (p : List PrefixByte) (s : State) : Outcome :=
  runStack (.fincstp p) s fun x => x.moveTop s.draws 1

/-- FDECSTP (R333). -/
def execFdecstp (p : List PrefixByte) (s : State) : Outcome :=
  runStack (.fdecstp p) s fun x => x.moveTop s.draws 7

/-- FFREE ST(i) (R334). -/
def execFfree (p : List PrefixByte) (i : Idx) (s : State) : Outcome :=
  runStack (.ffree p i) s fun x => (x.setTag (x.phys i) .empty).undefAll s.draws

/-- FNOP (R335). -/
def execFnop (p : List PrefixByte) (s : State) : Outcome :=
  runStack (.fnop p) s fun x => x.undefAll s.draws

/-- WAIT (R336): interrupt 7 by TS alone, then interrupt 16; no NPX state changes. -/
def execWait (p : List PrefixByte) (s : State) : Outcome :=
  if s.cpu.ts then .next (s.raise .v7)
  else if s.npx.sw.es then .next (s.raise .v16)
  else .next (s.complete (.wait p) s.npx)

/-- FENI (R337 with LEGACY_NOP = nop, log 20): no state change but the pc. -/
def execFeni (p : List PrefixByte) (s : State) : Outcome :=
  runStack (.feni p) s fun x => x

/-- FDISI (R337, log 20). -/
def execFdisi (p : List PrefixByte) (s : State) : Outcome :=
  runStack (.fdisi p) s fun x => x

/-- FSETPM (R337, log 20). -/
def execFsetpm (p : List PrefixByte) (s : State) : Outcome :=
  runStack (.fsetpm p) s fun x => x

end Sys2Proof.Machine
end

