-- ==== Sys2Proof/Machine/DataTransfer.lean ====
section
/-! DEFINITION. FLD, FILD, FBLD, FST, FSTP, FIST, FISTP, FBSTP, FXCH: spec/41_data_transfer.md. C3, C2, C0 are undefined
after each (R200). -/

namespace Sys2Proof.Machine

/-- The load skeleton R229: a stack overflow before the operand is looked at. -/
def Npx.load (x : Npx) (n : Nat) (conv : Result Ext) : Npx :=
  (x.deliverPush n (if x.full then .overflow x.cw qnanIndef else conv)).undefCc n

/-- FLD m32r and m64r (R201, R202). -/
def loadRealMem (i : Instr) (m : MemOperand) (f : RealFormat) (bytes : Nat) (s : State) : Outcome :=
  runLoad i m bytes s fun v x => x.load s.draws (loadReal x.cw f v)

/-- FILD (R205 to R207): an n-byte integer. -/
def loadIntMem (i : Instr) (m : MemOperand) (bytes : Nat) (s : State) : Outcome :=
  runLoad i m bytes s fun v x => x.load s.draws (.ok (intToExt (8 * bytes) v))

/-- FLD m32r (R201). -/
def execFldM32r (p : List PrefixByte) (m : MemOperand) (s : State) : Outcome :=
  loadRealMem (.fldM32r p m) m single 4 s

/-- FLD m64r (R202). -/
def execFldM64r (p : List PrefixByte) (m : MemOperand) (s : State) : Outcome :=
  loadRealMem (.fldM64r p m) m double 8 s

/-- FLD m80r (R203): a bit copy of any pattern. -/
def execFldM80r (p : List PrefixByte) (m : MemOperand) (s : State) : Outcome :=
  runLoad (.fldM80r p m) m 10 s fun v x => x.load s.draws (.ok (BitVec.ofNat 80 v))

/-- FLD ST(i) (R204): the source is tested before the destination, so an empty source with no room leaves C1 = 0, as D34
says; R204's pseudocode would go on to the overflow (log 47). -/
def execFldSti (p : List PrefixByte) (i : Idx) (s : State) : Outcome :=
  runStack (.fldSti p i) s fun x =>
    (x.deliverPush s.draws
      (if x.empty i then .underflow x.cw qnanIndef
       else if x.full then .overflow x.cw qnanIndef
       else .ok (x.st i))).undefCc s.draws

/-- FILD m16i (R205). -/
def execFildM16i (p : List PrefixByte) (m : MemOperand) (s : State) : Outcome :=
  loadIntMem (.fildM16i p m) m 2 s

/-- FILD m32i (R206). -/
def execFildM32i (p : List PrefixByte) (m : MemOperand) (s : State) : Outcome :=
  loadIntMem (.fildM32i p m) m 4 s

/-- FILD m64i (R207). -/
def execFildM64i (p : List PrefixByte) (m : MemOperand) (s : State) : Outcome :=
  loadIntMem (.fildM64i p m) m 8 s

/-- FBLD (R208): a digit above 9 is refused once the stack has room (R228, R229, log 25). -/
def execFbld (p : List PrefixByte) (m : MemOperand) (s : State) : Outcome :=
  let o := s.cpu.operand p m 10
  startEsc (.fbld p m) (some o) s fun x => readOperand o s fun v =>
    if !x.full && hasBadDigit v then .refused .invalidBcdDigit
    else .next (s.complete (.fbld p m) (x.load s.draws (.ok (bcdToExt v))))

/-- The end of a store with conversion: flags and C1; the pops if a value was stored (R164, R173, R174). -/
def Npx.stored (x : Npx) (n pops : Nat) (r : Result Nat) : Npx :=
  (match r.val with
    | none => x.note n r
    | some _ => (x.note n r).pops pops).undefCc n

/-- A store of ST(0): the indefinite on a masked stack underflow, else the conversion (R209 to R221). -/
def storeConverted (i : Instr) (m : MemOperand) (bytes pops : Nat) (indef : Nat) (conv : ControlWord → Ext → Result Nat)
    (s : State) : Outcome :=
  runStore i m bytes s fun x =>
    let r := if x.empty 0 then Result.underflow x.cw indef else conv x.cw (x.st 0)
    (r.val, x.stored s.draws pops r)

/-- FST and FSTP to single or double (R209, R210, R213, R214). -/
def storeRealMem (i : Instr) (m : MemOperand) (f : RealFormat) (bytes pops : Nat) (s : State) : Outcome :=
  storeConverted i m bytes pops (f.pack true f.ones (2 ^ (f.fw - 1))) (fun cw x => storeReal cw f x) s

/-- FIST and FISTP (R216 to R220). -/
def storeIntMem (i : Instr) (m : MemOperand) (bytes pops : Nat) (s : State) : Outcome :=
  storeConverted i m bytes pops (intIndef (8 * bytes)) (fun cw x => storeInt cw (8 * bytes) x) s

/-- FST m32r (R209). -/
def execFstM32r (p : List PrefixByte) (m : MemOperand) (s : State) : Outcome :=
  storeRealMem (.fstM32r p m) m single 4 0 s

/-- FST m64r (R210). -/
def execFstM64r (p : List PrefixByte) (m : MemOperand) (s : State) : Outcome :=
  storeRealMem (.fstM64r p m) m double 8 0 s

/-- FSTP m32r (R213). -/
def execFstpM32r (p : List PrefixByte) (m : MemOperand) (s : State) : Outcome :=
  storeRealMem (.fstpM32r p m) m single 4 1 s

/-- FSTP m64r (R214). -/
def execFstpM64r (p : List PrefixByte) (m : MemOperand) (s : State) : Outcome :=
  storeRealMem (.fstpM64r p m) m double 8 1 s

/-- FSTP m80r (R212): a bit copy of any pattern. -/
def execFstpM80r (p : List PrefixByte) (m : MemOperand) (s : State) : Outcome :=
  storeConverted (.fstpM80r p m) m 10 1 qnanIndef.toNat (fun _ x => .ok x.toNat) s

/-- FIST m16i (R216). -/
def execFistM16i (p : List PrefixByte) (m : MemOperand) (s : State) : Outcome :=
  storeIntMem (.fistM16i p m) m 2 0 s

/-- FIST m32i (R217). -/
def execFistM32i (p : List PrefixByte) (m : MemOperand) (s : State) : Outcome :=
  storeIntMem (.fistM32i p m) m 4 0 s

/-- FISTP m16i (R218). -/
def execFistpM16i (p : List PrefixByte) (m : MemOperand) (s : State) : Outcome :=
  storeIntMem (.fistpM16i p m) m 2 1 s

/-- FISTP m32i (R219). -/
def execFistpM32i (p : List PrefixByte) (m : MemOperand) (s : State) : Outcome :=
  storeIntMem (.fistpM32i p m) m 4 1 s

/-- FISTP m64i (R220). -/
def execFistpM64i (p : List PrefixByte) (m : MemOperand) (s : State) : Outcome :=
  storeIntMem (.fistpM64i p m) m 8 1 s

/-- FBSTP (R221). -/
def execFbstp (p : List PrefixByte) (m : MemOperand) (s : State) : Outcome :=
  storeConverted (.fbstp p m) m 10 1 bcdIndef (fun cw x => storeBcd cw x) s

/-- The copy of ST(0) to ST(i) that FST ST(i) and FSTP ST(i) share (R211, R215). -/
def Npx.copyTo (x : Npx) (n : Nat) (i : Idx) (pops : Nat) : Npx :=
  (x.deliverTo n (x.phys i) pops (if x.empty 0 then .underflow x.cw qnanIndef else .ok (x.st 0))).undefCc n

/-- FST ST(i) (R211). -/
def execFstSti (p : List PrefixByte) (i : Idx) (s : State) : Outcome :=
  runStack (.fstSti p i) s fun x => x.copyTo s.draws i 0

/-- FSTP ST(i) (R215). -/
def execFstpSti (p : List PrefixByte) (i : Idx) (s : State) : Outcome :=
  runStack (.fstpSti p i) s fun x => x.copyTo s.draws i 1

/-- Contents and tags of two registers exchanged. -/
def Npx.exchange (x : Npx) (j k : Idx) : Npx :=
  (((x.setRegRaw j (x.reg k)).setTag j (x.tag k)).setRegRaw k (x.reg j)).setTag k (x.tag j)

/-- An empty ST(i) filled with the indefinite (R222). -/
def Npx.fillEmpty (x : Npx) (i : Idx) : Npx := if x.empty i then x.setReg (x.phys i) qnanIndef else x

/-- FXCH's effect (R222). -/
def Npx.fxch (x : Npx) (n : Nat) (i : Idx) : Npx :=
  (if x.empty 0 || x.empty i then
     if x.cw.im then
       (((x.note n (Result.underflow x.cw ())).fillEmpty 0).fillEmpty i).exchange (x.phys 0) (x.phys i)
     else x.note n (Result.underflow x.cw ())
   else (x.note n (Result.ok ())).exchange (x.phys 0) (x.phys i)).undefCc n

/-- FXCH ST(i) (R222). -/
def execFxch (p : List PrefixByte) (i : Idx) (s : State) : Outcome :=
  runStack (.fxch p i) s fun x => x.fxch s.draws i

end Sys2Proof.Machine
end

