-- ==== Sys2Proof/Machine/Transcendental.lean ====
section
/-! DEFINITION. FCOS, FPTAN, FPATAN, FSIN, FSINCOS, F2XM1, FYL2X, FYL2XP1: spec/45_transcendental.md. The magnitude on
ordinary operands is the parameter TRANSC (R300, log 18); its sign, and the cases the spec lists as exact, are computed. -/

namespace Sys2Proof.Machine

/-- The largest exponent TRANSC may give a function, for the functions that never overflow (R401, R301 to R308; log 18):
|sin|, |cos| and |2^x - 1| are below 2, |arctan| below 4, and |log2(1 + x)| below 1/2 within FYL2XP1's range, with the
factor's exponent (`x` and `y` are the operands as each instruction passes them). -/
def transcMaxExponent (f : TranscFn) (y : Ext) : Option Int :=
  match f with
  | .sin | .cos | .f2xm1 => some 0
  | .atan2 => some 1
  | .yl2xp1 => some ((magOf y).log2 - 1)
  | .tan | .yl2x => none

/-- The magnitude a transcendental algorithm computes (R300). -/
def transcMag (f : TranscFn) (x y : Ext) : Mag :=
  let t := Config.transc f x y
  let expo := match transcMaxExponent f y with
    | some e => min t.expo e
    | none => t.expo
  { m := 2 ^ 66 + t.frac.toNat, e := expo - 66, sticky := t.sticky }

/-- The value of TRANSC with its sign, delivered in precision 64 (R300). -/
def deliverTransc (cw : ControlWord) (f : TranscFn) (x y : Ext) (s : Bool) : Result Ext :=
  if (Config.transc f x y).zero then .ok (zeroOf s) else deliver cw 64 s (transcMag f x y)

/-! Signs of the trigonometric functions. -/

/-- floor(pi * 2^256) (log 36). -/
def piBits : Nat := 0x3243f6a8885a308d313198a2e03707344a4093822299f31d0082efa98ec4e6c89

/-- floor(3 * pi / 4 * 2^256) (log 36). -/
def threeQuarterPiBits : Nat := 0x25b2f8fe6643a469e4e5327a2829456737b06ea199f37655c06233bf2b13ad166

/-- floor(|x| / (pi/2)) for |val(x)| < 2^63: the quadrant, counted without wrap. -/
def quadrant (x : Ext) : Nat :=
  if 0 ≤ (magOf x).log2 then ((sig x <<< 257) / piBits) >>> (-(trueExp x)).toNat else 0

/-- The sign of the sine (R300). -/
def sinSign (x : Ext) : Bool := signOf x != (2 ≤ quadrant x % 4)

/-- The sign of the cosine (R300). -/
def cosSign (x : Ext) : Bool := quadrant x % 4 == 1 || quadrant x % 4 == 2

/-- The sign of the tangent (R300). -/
def tanSign (x : Ext) : Bool := signOf x != (quadrant x % 2 == 1)

/-- |val(x)| >= 2^63 for a finite x (R309). -/
def tooLarge (x : Ext) : Bool := decide (63 ≤ (magOf x).log2) && classOf x != .zero

/-! The four trigonometric instructions. -/

/-- C2 written, C3 and C0 drawn (R309). -/
def Npx.reduced (x : Npx) (n : Nat) (c2 : Bool) : Npx :=
  x.withSw (x.sw.withCc ((drawnCc n).getLsbD 2) c2 ((drawnCc n).getLsbD 0))

/-- An operand too large (R309): nothing changes but the condition code; C1 is drawn. -/
def Npx.notReduced (x : Npx) (n : Nat) : Npx := (x.withSw (x.sw.withC1 (drawnC1 n))).reduced n true

/-- ST(0) is a finite operand too large to reduce (R309). -/
def Npx.topTooLarge (x : Npx) : Bool :=
  (classOf (x.st 0) == .normal || classOf (x.st 0) == .denormal) && tooLarge (x.st 0)

/-- FSIN or FCOS of an operand in range (R301, R304): `zero` is the exact result for a zero. -/
def trigResult (cw : ControlWord) (f : TranscFn) (sign : Ext → Bool) (zero : Ext → Ext) (x : Ext) : Result Ext :=
  Result.oneOperand cw x
    (if classOf x = .infinity then .invalid cw qnanIndef
     else if classOf x = .zero then .ok (zero x)
     else .denormal cw (classOf x == .denormal) (deliverTransc cw f x 0 (sign x)))

/-- FSIN's and FCOS's effect (R301, R304, R309). -/
def Npx.trig (x : Npx) (n : Nat) (f : Ext → Result Ext) : Npx :=
  if !x.empty 0 && x.topTooLarge then x.notReduced n
  else
    (x.deliverTo n (x.phys 0) 0 (if x.empty 0 then .underflow x.cw qnanIndef else f (x.st 0))).reduced n false

/-- FCOS (R301). -/
def execFcos (p : List PrefixByte) (s : State) : Outcome :=
  runStack (.fcos p) s fun x => x.trig s.draws (trigResult x.cw .cos cosSign fun _ => one)

/-- FSIN (R304). -/
def execFsin (p : List PrefixByte) (s : State) : Outcome :=
  runStack (.fsin p) s fun x => x.trig s.draws (trigResult x.cw .sin sinSign fun y => y)

/-- The effect of FPTAN and FSINCOS (R302, R305, R309): two stack tests, then the range, then the pair. -/
def Npx.trigPair (x : Npx) (n : Nat) (f : Ext → Result (Ext × Ext)) : Npx :=
  if !x.empty 0 && !x.full && x.topTooLarge then x.notReduced n
  else
    (x.deliverPair n
      (if x.empty 0 then .underflow x.cw (qnanIndef, qnanIndef)
       else if x.full then .overflow x.cw (qnanIndef, qnanIndef)
       else f (x.st 0))).reduced n false

/-- A result paired with a second value, which is pushed. -/
def Result.paired (r : Result Ext) (b : Ext) : Result (Ext × Ext) :=
  { signals := r.signals, sf := r.sf, val := r.val.map fun v => (v, b), c1 := r.c1 }

/-- Two results of one instruction: the flags of both, C1 of the second (R305). -/
def Result.both (r t : Result Ext) : Result (Ext × Ext) :=
  { signals :=
      { ie := r.signals.ie || t.signals.ie, de := r.signals.de || t.signals.de, ze := r.signals.ze || t.signals.ze,
        oe := r.signals.oe || t.signals.oe, ue := r.signals.ue || t.signals.ue, pe := r.signals.pe || t.signals.pe },
    sf := r.sf || t.sf,
    val := match r.val, t.val with
      | some a, some b => some (a, b)
      | _, _ => none,
    c1 := t.c1 }

/-- The class test of FPTAN and FSINCOS (R302): NaNs and invalid operands go into both registers. -/
def pairOperand (cw : ControlWord) (x : Ext) (k : Result (Ext × Ext)) : Result (Ext × Ext) :=
  match classOf x with
  | .unsupported | .infinity => .invalid cw (qnanIndef, qnanIndef)
  | .snan => .invalid cw (quiet x, quiet x)
  | .qnan => .ok (x, x)
  | .zero | .denormal | .normal => k

/-- The tangent and 1.0 (R302). -/
def tanResult (cw : ControlWord) (x : Ext) : Result (Ext × Ext) :=
  pairOperand cw x
    (if classOf x = .zero then .ok (x, one)
     else .denormal cw (classOf x == .denormal) ((deliverTransc cw .tan x 0 (tanSign x)).paired one))

/-- The sine and the cosine (R305). -/
def sincosResult (cw : ControlWord) (x : Ext) : Result (Ext × Ext) :=
  pairOperand cw x
    (if classOf x = .zero then .ok (x, one)
     else .denormal cw (classOf x == .denormal)
       ((deliverTransc cw .sin x 0 (sinSign x)).both (deliverTransc cw .cos x 0 (cosSign x))))

/-- FPTAN (R302). -/
def execFptan (p : List PrefixByte) (s : State) : Outcome :=
  runStack (.fptan p) s fun x => x.trigPair s.draws (tanResult x.cw)

/-- FSINCOS (R305). -/
def execFsincos (p : List PrefixByte) (s : State) : Outcome :=
  runStack (.fsincos p) s fun x => x.trigPair s.draws (sincosResult x.cw)

/-! Two-operand instructions: ST(1) and ST(0) into ST(1), then pop. -/

/-- The end of FPATAN, FYL2X and FYL2XP1: the stack test, the result into phys(1), the pop, C3, C2, C0 drawn. -/
def Npx.popInto1 (x : Npx) (n : Nat) (f : Ext → Ext → Result Ext) : Npx :=
  (x.deliverTo n (x.phys 1) 1
    (if x.empty 0 || x.empty 1 then .underflow x.cw qnanIndef else f (x.st 0) (x.st 1))).undefCc n

/-- The table of R303: a zero, or a multiple of pi, or none of its rows. -/
inductive AtanCase where
  | zero
  | angle (v : Mag)
  | ordinary
deriving DecidableEq, Repr

/-- A multiple of pi whose bits are given, divided by a power of two. -/
def angleMag (bits : Nat) (shift : Int) : Mag := { m := bits, e := -256 - shift, sticky := true }

/-- The rows of the table of R303 for y = ST(1) and x = ST(0). -/
def atanCase (y x : Ext) : AtanCase :=
  if classOf y = .zero then (if signOf x then .angle (angleMag piBits 0) else .zero)
  else if classOf y = .infinity then
    if classOf x = .infinity then
      (if signOf x then .angle (angleMag threeQuarterPiBits 0) else .angle (angleMag piBits 2))
    else .angle (angleMag piBits 1)
  else if classOf x = .zero then .angle (angleMag piBits 1)
  else if classOf x = .infinity then (if signOf x then .angle (angleMag piBits 0) else .zero)
  else .ordinary

/-- The arctangent of ST(1) / ST(0) in four quadrants (R303): its sign is y's. -/
def atanResult (cw : ControlWord) (x y : Ext) : Result Ext :=
  Result.twoOperands cw x y
    (.denormal cw (classOf x == .denormal || classOf y == .denormal)
      (match atanCase y x with
        | .zero => .ok (zeroOf (signOf y))
        | .angle v => deliver cw 64 (signOf y) v
        | .ordinary => deliverTransc cw .atan2 y x (signOf y)))

/-- FPATAN (R303). -/
def execFpatan (p : List PrefixByte) (s : State) : Outcome :=
  runStack (.fpatan p) s fun x => x.popInto1 s.draws (atanResult x.cw)

/-- val(x) is a power of two, and its exponent (R307). -/
def powerOfTwo (x : Ext) : Option Int :=
  if sig x = 2 ^ (sig x).log2 then some (magOf x).log2 else none

/-- ST(1) * log2(ST(0)) (R307): x = ST(0), y = ST(1). -/
def yl2xResult (cw : ControlWord) (x y : Ext) : Result Ext :=
  let below1 := decide ((magOf x).log2 < 0)
  Result.twoOperands cw x y
    (if (signOf x ∧ classOf x ≠ .zero) ∨ (classOf x = .zero ∧ classOf y = .zero) ∨
        (classOf x = .infinity ∧ classOf y = .zero) ∨ (x = one ∧ classOf y = .infinity) then .invalid cw qnanIndef
     else .denormal cw (classOf x == .denormal || classOf y == .denormal)
       (if classOf x = .zero then
          (if classOf y = .infinity then .ok (infinity (!signOf y)) else .zeroDivide cw (infinity (!signOf y)))
        else if classOf x = .infinity then .ok (infinity (signOf y))
        else if x = one then .ok (zeroOf (signOf y))
        else if classOf y = .infinity then .ok (infinity (signOf y != below1))
        else if classOf y = .zero then .ok (zeroOf (signOf y != below1))
        else match powerOfTwo x with
          | some k => deliver cw 64 (signOf y != below1) { magOf y with m := k.natAbs * sig y }
          | none => deliverTransc cw .yl2x x y (signOf y != below1)))

/-- FYL2X (R307). -/
def execFyl2x (p : List PrefixByte) (s : State) : Outcome :=
  runStack (.fyl2x p) s fun x => x.popInto1 s.draws (yl2xResult x.cw)

/-! Operands out of range (spec/93_implementation_defined.md U10, log 33). -/

/-- A pattern an arithmetic result can be: not unsupported, no signaling NaN (R151), and no pseudo-denormal, which no
instruction produces (R149): one that is drawn is delivered as the normal number of the same value. -/
def validPattern (v : Ext) : Ext :=
  match classOf v with
  | .unsupported => qnanIndef
  | .snan => quiet v
  | .denormal => if v.getLsbD 63 then v ||| (1 <<< 64) else v
  | .zero | .normal | .infinity | .qnan => v

/-- The free result of an operand out of range: any valid pattern, with free PE, UE and OE, the last two never together
(spec/60_exceptions.md R406), and a free C1 (R306, R308). -/
def outOfRangeResult (n : Nat) : Result Ext :=
  let f : BitVec 3 := Config.draw 3 .outOfRangeFlags n
  { signals := { pe := f.getLsbD 0, ue := f.getLsbD 1 && !f.getLsbD 2, oe := f.getLsbD 2 },
    val := some (validPattern (Config.draw 80 .outOfRange n)), c1 := .draw }

/-- |val(x)| >= (2 - sqrt 2)/2 for finite x, in integers of 2^-16445: 1 - |x| <= sqrt(2)/2 (R308). -/
def beyondLogRange (x : Ext) : Bool :=
  let d : Int := 2 ^ 16445 - ((fixed x).natAbs : Int)
  decide (d ≤ 0) || decide (2 * (d * d) ≤ 2 ^ 32890)

/-- |val(x)| > 1 for finite x (R306). -/
def aboveOne (x : Ext) : Bool := decide (2 ^ 16445 < (fixed x).natAbs)

/-- 2^ST(0) - 1 (R306). -/
def exp2m1Result (cw : ControlWord) (n : Nat) (x : Ext) : Result Ext :=
  Result.oneOperand cw x
    (if classOf x = .zero then .ok x
     else if x = one then .ok one
     else if x = negate one then .ok (0xBFFE8000000000000000 : Ext)
     else if classOf x = .infinity ∨ aboveOne x then outOfRangeResult n
     else .denormal cw (classOf x == .denormal) (deliverTransc cw .f2xm1 x 0 (signOf x)))

/-- F2XM1 (R306). -/
def execF2xm1 (p : List PrefixByte) (s : State) : Outcome :=
  runStack (.f2xm1 p) s fun x => x.replaceTop s.draws (exp2m1Result x.cw s.draws)

/-- ST(1) * log2(ST(0) + 1) (R308): x = ST(0), y = ST(1). -/
def yl2xp1Result (cw : ControlWord) (n : Nat) (x y : Ext) : Result Ext :=
  let s := signOf x != signOf y
  Result.twoOperands cw x y
    (if classOf x = .infinity ∨ beyondLogRange x then outOfRangeResult n
     else if classOf x = .zero ∧ classOf y = .infinity then .invalid cw qnanIndef
     else .denormal cw (classOf x == .denormal || classOf y == .denormal)
       (if classOf x = .zero then .ok (zeroOf s)
        else if classOf y = .infinity then .ok (infinity s)
        else if classOf y = .zero then .ok (zeroOf s)
        else deliverTransc cw .yl2xp1 x y s))

/-- FYL2XP1 (R308). -/
def execFyl2xp1 (p : List PrefixByte) (s : State) : Outcome :=
  runStack (.fyl2xp1 p) s fun x => x.popInto1 s.draws (yl2xp1Result x.cw s.draws)

end Sys2Proof.Machine
end

