-- ==== Sys2Proof/Machine/Dispatch.lean ====
section
/-! DEFINITION. The meaning of every instruction: one arm per row of spec/opcode_table.json, one definition per arm. -/

namespace Sys2Proof.Machine

def exec (i : Instr) (s : State) : Host.Outcome State Fault Refusal :=
  match i with
  | .faddM32r p m => Sys2Proof.Machine.execFaddM32r p m s
  | .fmulM32r p m => Sys2Proof.Machine.execFmulM32r p m s
  | .fcomM32r p m => Sys2Proof.Machine.execFcomM32r p m s
  | .fcompM32r p m => Sys2Proof.Machine.execFcompM32r p m s
  | .fsubM32r p m => Sys2Proof.Machine.execFsubM32r p m s
  | .fsubrM32r p m => Sys2Proof.Machine.execFsubrM32r p m s
  | .fdivM32r p m => Sys2Proof.Machine.execFdivM32r p m s
  | .fdivrM32r p m => Sys2Proof.Machine.execFdivrM32r p m s
  | .fiaddM32i p m => Sys2Proof.Machine.execFiaddM32i p m s
  | .fimulM32i p m => Sys2Proof.Machine.execFimulM32i p m s
  | .ficomM32i p m => Sys2Proof.Machine.execFicomM32i p m s
  | .ficompM32i p m => Sys2Proof.Machine.execFicompM32i p m s
  | .fisubM32i p m => Sys2Proof.Machine.execFisubM32i p m s
  | .fisubrM32i p m => Sys2Proof.Machine.execFisubrM32i p m s
  | .fidivM32i p m => Sys2Proof.Machine.execFidivM32i p m s
  | .fidivrM32i p m => Sys2Proof.Machine.execFidivrM32i p m s
  | .faddM64r p m => Sys2Proof.Machine.execFaddM64r p m s
  | .fmulM64r p m => Sys2Proof.Machine.execFmulM64r p m s
  | .fcomM64r p m => Sys2Proof.Machine.execFcomM64r p m s
  | .fcompM64r p m => Sys2Proof.Machine.execFcompM64r p m s
  | .fsubM64r p m => Sys2Proof.Machine.execFsubM64r p m s
  | .fsubrM64r p m => Sys2Proof.Machine.execFsubrM64r p m s
  | .fdivM64r p m => Sys2Proof.Machine.execFdivM64r p m s
  | .fdivrM64r p m => Sys2Proof.Machine.execFdivrM64r p m s
  | .fiaddM16i p m => Sys2Proof.Machine.execFiaddM16i p m s
  | .fimulM16i p m => Sys2Proof.Machine.execFimulM16i p m s
  | .ficomM16i p m => Sys2Proof.Machine.execFicomM16i p m s
  | .ficompM16i p m => Sys2Proof.Machine.execFicompM16i p m s
  | .fisubM16i p m => Sys2Proof.Machine.execFisubM16i p m s
  | .fisubrM16i p m => Sys2Proof.Machine.execFisubrM16i p m s
  | .fidivM16i p m => Sys2Proof.Machine.execFidivM16i p m s
  | .fidivrM16i p m => Sys2Proof.Machine.execFidivrM16i p m s
  | .fldM32r p m => Sys2Proof.Machine.execFldM32r p m s
  | .fstM32r p m => Sys2Proof.Machine.execFstM32r p m s
  | .fstpM32r p m => Sys2Proof.Machine.execFstpM32r p m s
  | .fldenv p m => Sys2Proof.Machine.execFldenv p m s
  | .fldcw p m => Sys2Proof.Machine.execFldcw p m s
  | .fstenv p m => Sys2Proof.Machine.execFstenv p m s
  | .fstcw p m => Sys2Proof.Machine.execFstcw p m s
  | .fildM32i p m => Sys2Proof.Machine.execFildM32i p m s
  | .fistM32i p m => Sys2Proof.Machine.execFistM32i p m s
  | .fistpM32i p m => Sys2Proof.Machine.execFistpM32i p m s
  | .fldM80r p m => Sys2Proof.Machine.execFldM80r p m s
  | .fstpM80r p m => Sys2Proof.Machine.execFstpM80r p m s
  | .fldM64r p m => Sys2Proof.Machine.execFldM64r p m s
  | .fstM64r p m => Sys2Proof.Machine.execFstM64r p m s
  | .fstpM64r p m => Sys2Proof.Machine.execFstpM64r p m s
  | .frstor p m => Sys2Proof.Machine.execFrstor p m s
  | .fsave p m => Sys2Proof.Machine.execFsave p m s
  | .fstswM16 p m => Sys2Proof.Machine.execFstswM16 p m s
  | .fildM16i p m => Sys2Proof.Machine.execFildM16i p m s
  | .fistM16i p m => Sys2Proof.Machine.execFistM16i p m s
  | .fistpM16i p m => Sys2Proof.Machine.execFistpM16i p m s
  | .fbld p m => Sys2Proof.Machine.execFbld p m s
  | .fildM64i p m => Sys2Proof.Machine.execFildM64i p m s
  | .fbstp p m => Sys2Proof.Machine.execFbstp p m s
  | .fistpM64i p m => Sys2Proof.Machine.execFistpM64i p m s
  | .faddStSti p j => Sys2Proof.Machine.execFaddStSti p j s
  | .fmulStSti p j => Sys2Proof.Machine.execFmulStSti p j s
  | .fcomSti p j => Sys2Proof.Machine.execFcomSti p j s
  | .fcompSti p j => Sys2Proof.Machine.execFcompSti p j s
  | .fsubStSti p j => Sys2Proof.Machine.execFsubStSti p j s
  | .fsubrStSti p j => Sys2Proof.Machine.execFsubrStSti p j s
  | .fdivStSti p j => Sys2Proof.Machine.execFdivStSti p j s
  | .fdivrStSti p j => Sys2Proof.Machine.execFdivrStSti p j s
  | .fldSti p j => Sys2Proof.Machine.execFldSti p j s
  | .fxch p j => Sys2Proof.Machine.execFxch p j s
  | .fnop p => Sys2Proof.Machine.execFnop p s
  | .fchs p => Sys2Proof.Machine.execFchs p s
  | .fabs p => Sys2Proof.Machine.execFabs p s
  | .ftst p => Sys2Proof.Machine.execFtst p s
  | .fxam p => Sys2Proof.Machine.execFxam p s
  | .fld1 p => Sys2Proof.Machine.execFld1 p s
  | .fldl2t p => Sys2Proof.Machine.execFldl2t p s
  | .fldl2e p => Sys2Proof.Machine.execFldl2e p s
  | .fldpi p => Sys2Proof.Machine.execFldpi p s
  | .fldlg2 p => Sys2Proof.Machine.execFldlg2 p s
  | .fldln2 p => Sys2Proof.Machine.execFldln2 p s
  | .fldz p => Sys2Proof.Machine.execFldz p s
  | .f2xm1 p => Sys2Proof.Machine.execF2xm1 p s
  | .fyl2x p => Sys2Proof.Machine.execFyl2x p s
  | .fptan p => Sys2Proof.Machine.execFptan p s
  | .fpatan p => Sys2Proof.Machine.execFpatan p s
  | .fxtract p => Sys2Proof.Machine.execFxtract p s
  | .fprem1 p => Sys2Proof.Machine.execFprem1 p s
  | .fdecstp p => Sys2Proof.Machine.execFdecstp p s
  | .fincstp p => Sys2Proof.Machine.execFincstp p s
  | .fprem p => Sys2Proof.Machine.execFprem p s
  | .fyl2xp1 p => Sys2Proof.Machine.execFyl2xp1 p s
  | .fsqrt p => Sys2Proof.Machine.execFsqrt p s
  | .fsincos p => Sys2Proof.Machine.execFsincos p s
  | .frndint p => Sys2Proof.Machine.execFrndint p s
  | .fscale p => Sys2Proof.Machine.execFscale p s
  | .fsin p => Sys2Proof.Machine.execFsin p s
  | .fcos p => Sys2Proof.Machine.execFcos p s
  | .fucompp p => Sys2Proof.Machine.execFucompp p s
  | .fclex p => Sys2Proof.Machine.execFclex p s
  | .finit p => Sys2Proof.Machine.execFinit p s
  | .faddStiSt p j => Sys2Proof.Machine.execFaddStiSt p j s
  | .fmulStiSt p j => Sys2Proof.Machine.execFmulStiSt p j s
  | .fsubrStiSt p j => Sys2Proof.Machine.execFsubrStiSt p j s
  | .fsubStiSt p j => Sys2Proof.Machine.execFsubStiSt p j s
  | .fdivrStiSt p j => Sys2Proof.Machine.execFdivrStiSt p j s
  | .fdivStiSt p j => Sys2Proof.Machine.execFdivStiSt p j s
  | .ffree p j => Sys2Proof.Machine.execFfree p j s
  | .fstSti p j => Sys2Proof.Machine.execFstSti p j s
  | .fstpSti p j => Sys2Proof.Machine.execFstpSti p j s
  | .fucom p j => Sys2Proof.Machine.execFucom p j s
  | .fucomp p j => Sys2Proof.Machine.execFucomp p j s
  | .faddp p j => Sys2Proof.Machine.execFaddp p j s
  | .fmulp p j => Sys2Proof.Machine.execFmulp p j s
  | .fcompp p => Sys2Proof.Machine.execFcompp p s
  | .fsubrp p j => Sys2Proof.Machine.execFsubrp p j s
  | .fsubp p j => Sys2Proof.Machine.execFsubp p j s
  | .fdivrp p j => Sys2Proof.Machine.execFdivrp p j s
  | .fdivp p j => Sys2Proof.Machine.execFdivp p j s
  | .fstswAx p => Sys2Proof.Machine.execFstswAx p s
  | .wait p => Sys2Proof.Machine.execWait p s
  | .feni p => Sys2Proof.Machine.execFeni p s
  | .fdisi p => Sys2Proof.Machine.execFdisi p s
  | .fsetpm p => Sys2Proof.Machine.execFsetpm p s

end Sys2Proof.Machine
end

