-- ==== Sys2Proof/Machine/Fetch.lean ====
section
/-! DEFINITION. Fetching and decoding the instruction at CS:EIP, as the host does for the NPX: spec/00_scope.md R17,
spec/10_state.md R24, spec/30_encoding.md R107, spec/20_memory.md R90. -/

namespace Sys2Proof.Machine

/-- The linear address of the k-th byte at CS:EIP (log 3). -/
def State.codeAddr (s : State) (k : Nat) : Nat := (s.cpu.cs.base.toNat + (s.cpu.eip.toNat + k)) % 2 ^ 32

/-- The k-th byte at CS:EIP is within the code segment's limit and within the address space: its offset is at most 0FFFFh
in a small segment, 0FFFFFFFFh in a big one (spec/20_memory.md R72), and its linear address does not pass 0FFFFFFFFh (R24,
spec/92_eei_decisions.md D3, log 27). -/
def State.codeInLimit (s : State) (k : Nat) : Bool :=
  let off := s.cpu.eip.toNat + k
  decide (off ≤ s.cpu.cs.limit.toNat) && decide (off < s.cpu.cs.offsetModulus) &&
    decide (s.cpu.cs.base.toNat + off < 2 ^ 32)

/-- The bytes from the k-th on, at most n, up to the end of the segment or of the address space, or the first one that
cannot be read. -/
def State.codeFrom (s : State) : Nat → Nat → List Byte
  | 0, _ => []
  | n + 1, k =>
    if s.codeInLimit k && s.cpu.accessible false (s.codeAddr k) then s.mem.read (s.codeAddr k) :: s.codeFrom n (k + 1)
    else []

/-- The longest instruction, in bytes (PRESUMED, log 22). -/
def maxLength : Nat := 15

/-- The bytes the host decodes. -/
def State.code (s : State) : List Byte := s.codeFrom maxLength 0

/-- One of the first n bytes was stored by an NPX instruction (R90, log 26). -/
def State.codeStored (s : State) (n : Nat) : Bool := (List.range n).any fun k => s.mem.npxStored.contains (s.codeAddr k)

/-- What the host finds at CS:EIP. -/
inductive Fetched where
  | instr (i : Instr)
  /-- An ESC opcode met with EM or TS set, or WAIT with TS set: interrupt 7 (R107, R410). -/
  | trap7
  | refused (r : Refusal)
deriving DecidableEq, Repr

/-- The opcode byte b0 takes interrupt 7: an ESC with EM or TS set, WAIT with TS set (spec/60_exceptions.md R410). -/
def Cpu.notAvailable (c : Cpu) (b0 : Byte) : Bool :=
  (b0.extractLsb' 3 5 == 0b11011 && (c.em || c.ts)) || (b0 == 0x9B && c.ts)

/-- The byte after the prefix bytes takes interrupt 7, whatever follows it (R107). -/
def State.meetsSeven (s : State) : Bool := (takePrefixes s.code).2.head?.any s.cpu.notAvailable

/-- The bytes up to and including the first opcode byte. -/
def State.openingLength (s : State) : Nat := (takePrefixes s.code).1.length + 1

/-- Why the bytes end inside an instruction. -/
def State.truncatedBy (s : State) : Refusal :=
  if s.code.length = maxLength then .instructionTooLong
  else if s.codeInLimit s.code.length then .codeAccess
  else .codeSegmentEnd

/-- The bytes up to and including a reserved ESC's second opcode byte. -/
def State.reservedLength (s : State) : Nat := s.openingLength + 1

/-- The instruction at CS:EIP. Interrupt 7 comes before anything else, once the prefix bytes and the opcode byte are known
(R107); that these must not have been written by an NPX store is R90's (log 48). Otherwise an instruction runs that ends
before the end of the segment and of the address space (R24, log 27) and whose bytes no NPX store wrote (R90, log 26). -/
def State.fetch (s : State) : Fetched :=
  if s.meetsSeven then (if s.codeStored s.openingLength then .refused .storedCode else .trap7)
  else
    match decode s.cpu.adSize32 s.code with
    | .ok (i, _) =>
      if s.codeStored i.length then .refused .storedCode
      else if s.codeInLimit i.length then .instr i
      else .refused .codeSegmentEnd
    | .error .truncated => .refused s.truncatedBy
    | .error .lockOrRepeat => .refused .lockOrRepeat
    | .error .notNpx => .refused .notNpxInstruction
    | .error .reserved => if s.codeStored s.reservedLength then .refused .storedCode else .refused .reservedEncoding

/-- Bytes placed in memory from outside, from the k-th byte at CS:EIP on (log 41). -/
def State.placeCode (s : State) : List Byte → Nat → Memory → Memory
  | [], _, m => m
  | b :: bs, k, m => s.placeCode bs (k + 1) (m.place (s.codeAddr k) b)

/-- The fifteen bytes of a table word at CS:EIP: the word's bytes, then zeros. -/
def wordCode (nbits w : Nat) : List Byte := (tableBytes nbits w ++ List.replicate maxLength 0).take maxLength

end Sys2Proof.Machine
end

