-- ==== Sys2Proof/Machine/Step.lean ====
section
/-! DEFINITION. One step of the machine: the entry into a handler, or one instruction (spec/00_scope.md R17, spec/
92_eei_decisions.md D1, D32). -/

namespace Sys2Proof.Machine

/-- One step. An interrupt that was raised is entered (or ends the run); else the instruction at CS:EIP is executed. -/
def step (s : State) : Host.Outcome State Fault Refusal :=
  match s.cpu.interrupt with
  | some t => s.enterHandler t
  | none =>
    match s.fetch with
    | .instr i => exec i s
    | .trap7 => .next (s.raise .v7)
    | .refused r => .refused r

/-- s with the instruction of a table word stored where step fetches next, every byte after it 0 (log 41). -/
def State.withFetchWord (s : State) (nbits w : Nat) : State :=
  { s with
    cpu := { s.cpu with interrupt := none },
    mem := s.placeCode (wordCode nbits w) 0 s.mem }

end Sys2Proof.Machine
end

