-- ==== Sys2Proof/Machine/Bus.lean ====
section
/-! DEFINITION. The bus level (c) of spec/00_scope.md R17, as far as the source fixes it: one CLK of the bus control logic
and its outputs (spec/47_hardware_interface.md R354 to R374). It is a second machine beside `step`, over State.bus; what
the data interface and the FPU decide (when PEREQ rises and an instruction ends, what it leaves, what passes between the
FPU and the FIFO) is an input, honoured where R357, R366 and R374 allow it (R375, log 38). -/

namespace Sys2Proof.Machine

/-! The pins. -/

/-- The input pins of one CLK as electrical levels, true = HIGH (R351). CKM is the strapping option of R355. -/
structure BusPins where
  ads : Bool
  ready : Bool
  wr : Bool
  nps1 : Bool
  nps2 : Bool
  cmd0 : Bool
  sten : Bool
  resetin : Bool
  ckm : Bool
  data : DWord
deriving DecidableEq, Repr

/-- What the data interface and control unit and the FPU do in one CLK (R357, R364, R366; the timing is not in the source,
R375). -/
structure UnitEvents where
  /-- The 387CLK2 periods in this CLK, looked at in asynchronous mode only (R355). -/
  ticks : Nat
  /-- PEREQ is to rise for this many pieces of the operand; 0 asks for nothing. -/
  request : Nat
  /-- The FPU takes this many of the oldest items out of the FIFO. -/
  take : Nat
  /-- A doubleword of a store enters the FIFO. -/
  push : Option DWord
  /-- The instruction in progress leaves this NPX state, and ERROR with it. -/
  result : Option Npx
  /-- The instruction is complete. -/
  done : Bool
  /-- The opcode now being written is FLDENV's or FRSTOR's (R363). -/
  envLoad : Bool
  /-- The opcode now being written is FNINIT's, FNCLEX's, FNSTENV's or FNSAVE's (R357). -/
  clearsError : Bool
deriving DecidableEq, Repr

/-- The outputs: none is floating; true is HIGH (R351, R354). -/
structure BusOutputs where
  readyo : Option Bool
  busy : Option Bool
  pereq : Option Bool
  error : Option Bool
  data : Option DWord
deriving DecidableEq, Repr

/-- The I/O address of the command port: A31 = 1, A2 = 0 (R360). -/
def commandPort : DWord := 0x800000F8

/-- The I/O address of the data port: A31 = 1, A2 = 1 (R360). -/
def dataPort : DWord := 0x800000FC

/-- The select pins in an I/O cycle of the CPU at address a, with the connections of R359: M/IO (LOW) drives NPS1, A31
drives NPS2, A2 drives CMD0; no other address bit reaches the NPX (R360). -/
def BusPins.atIo (p : BusPins) (a : DWord) : BusPins :=
  { p with nps1 := false, nps2 := a.getLsbD 31, cmd0 := a.getLsbD 2 }

/-- The same in a memory cycle: M/IO is HIGH. -/
def BusPins.atMemory (p : BusPins) (a : DWord) : BusPins :=
  { p with nps1 := true, nps2 := a.getLsbD 31, cmd0 := a.getLsbD 2 }

/-- Table 3.4 (R361). -/
def cycleType (p : BusPins) : CycleType :=
  if !p.sten then .floating
  else if p.nps1 || !p.nps2 then .notSelected
  else if !p.cmd0 then (if p.wr then .opcodeWrite else .controlRead)
  else (if p.wr then .dataWrite else .dataRead)

/-- A cycle that selects the NPX (R361). -/
def CycleType.selected : CycleType → Bool
  | .floating | .notSelected => false
  | .controlRead | .opcodeWrite | .dataRead | .dataWrite => true

/-- A read cycle of the NPX. -/
def CycleType.isRead : CycleType → Bool
  | .controlRead | .dataRead => true
  | .floating | .notSelected | .opcodeWrite | .dataWrite => false

/-! The outputs. -/

/-- The TRS state in which READYO is asserted: the second for reads and for the operand writes of FLDENV and FRSTOR, else
the first (R363). -/
def readyoTrs (u : BusUnit) (k : CycleType) : Nat :=
  if k.isRead || (k == .dataWrite && u.envLoad) then 2 else 1

/-- READYO is asserted (R358, R363): for one CLK of a selected cycle. -/
def BusUnit.readyo (u : BusUnit) : Bool :=
  match u.phase, u.cycle with
  | .trs, some c => c.kind.selected && c.trs == readyoTrs u c.kind
  | _, _ => false

/-- The word a read of the command port returns (R362): D15-D0 the control or the status word, D31-D16 free. Which of the
two is an opaque function of the last opcode; where none has been written since reset, on which the spec is silent, of the
word 0 (DESIGN CHOICE, log 38).
What a read returns while an instruction is executing, BUSY awaited or active, is not in the source either
(spec/70_reset_and_hazards.md R473). Here it is the word as it is held in that CLK: the old value up to and in the CLK in
which the unit reports what the instruction leaves, and the new one from the next CLK on (DESIGN CHOICE, log 38). -/
def State.portWord (s : State) : DWord :=
  let hi : Word := Config.draw 16 .portData s.draws
  if Config.portReadsControl (s.bus.opcode.getD 0) then hi ++ s.npx.cwImage s.draws else hi ++ s.npx.sw.toBits

/-- The word D31-D0 carry in a read cycle (R360, R362, R364). -/
def State.busData (s : State) : CycleType → DWord
  | .controlRead => s.portWord
  | .dataRead => s.bus.fifo.headD (Config.draw 32 .portData s.draws)
  | .floating | .notSelected | .opcodeWrite | .dataWrite => 0

/-- The outputs in a state (R354, R357, R358, R372): STEN inactive floats everything; D31-D0 are driven in the TRS states
of a selected read; READYO, BUSY and ERROR are LOW when active, PEREQ is HIGH; ERROR is active exactly when ES is set.
RESETIN is not looked at: in the CLK in which it first is HIGH the outputs are those of the state before, and Table 3.3 (R356)
shows from the next CLK on; the exact CLK is lost from the source (DESIGN CHOICE, log 44). -/
def busOutputs (s : State) (p : BusPins) : BusOutputs :=
  if p.sten then
    { readyo := some (!s.bus.readyo), busy := some (!s.bus.busy), pereq := some s.bus.pereq,
      error := some (!s.npx.sw.es),
      data := match s.bus.phase, s.bus.cycle with
        | .trs, some c => if c.kind.isRead then some (s.busData c.kind) else none
        | _, _ => none }
  else { readyo := none, busy := none, pereq := none, error := none, data := none }

/-! The bus control logic. -/

/-- A piece of the operand has moved through the data port; with the last one PEREQ goes inactive (R357, R366). -/
def BusUnit.pieceMoved (u : BusUnit) : BusUnit :=
  { u with pieces := u.pieces - 1, pereq := u.pereq && decide (1 < u.pieces) }

/-- What the end of a cycle does (R362, R364, R374): an opcode is latched, and BUSY follows two CLK later (t35); data enter
or leave the FIFO; and the next write must wait (t36, t37). It does so however few TRS states the cycle has had, and an
operand moves whether PEREQ is active or not (DESIGN CHOICE, log 38). -/
def BusUnit.endCycle (u : BusUnit) (k : CycleType) (p : BusPins) (ev : UnitEvents) : BusUnit :=
  match k with
  | .opcodeWrite =>
    { u with opcode := some p.data, busyIn := 2, envLoad := ev.envLoad, clearsError := ev.clearsError, writeGap := 3 }
  | .dataWrite => { u.pieceMoved with fifo := u.fifo ++ [p.data], dataGap := 4 }
  | .dataRead => { u.pieceMoved with fifo := u.fifo.tail }
  | .floating | .notSelected | .controlRead => u

/-- The state machine of R370, one CLK: the cycle type is latched when ADS is active (LOW); READY is active LOW. A read, or
an operand write of FLDENV or FRSTOR, that READY ends in its first TRS state lacks the wait state which R363 and R372 say
the system must give; what the NPX then does is not in the spec. Here the cycle ends as any other (DESIGN CHOICE, log 38):
it is neither refused nor are its data freed. -/
def BusUnit.clockPhase (u : BusUnit) (p : BusPins) (ev : UnitEvents) : BusUnit :=
  match u.phase with
  | .ti => if p.ads then u else { u with phase := .trs, cycle := some { kind := cycleType p, trs := 1 } }
  | .tp => { u with phase := .trs, cycle := u.cycle.map fun c => { c with trs := 1 } }
  | .trs =>
    if p.ready then { u with cycle := u.cycle.map fun c => { c with trs := c.trs + 1 } }
    else
      let v := match u.cycle with
        | some c => u.endCycle c.kind p ev
        | none => u
      if p.ads then { v with phase := .ti, cycle := none }
      else { v with phase := .tp, cycle := some { kind := cycleType p, trs := 0 } }

/-! The handshake (R357, R366, R374). Nothing here happens unless an opcode has been written: BUSY rises two CLK after it,
and PEREQ, the FIFO's FPU side and ERROR move only while BUSY is active. -/

/-- BUSY may become inactive: PEREQ is inactive, BUSY has lasted three CLK (t32), and ERROR has not changed in the last
three (t33 for a change to active; for one to inactive DESIGN CHOICE, log 38). -/
def BusUnit.mayEnd (u : BusUnit) : Bool :=
  u.busy && !u.pereq && decide (2 ≤ u.busyFor) && u.errorFor.all fun n => decide (2 ≤ n)

/-- BUSY becomes inactive in this CLK. -/
def BusUnit.ends (u : BusUnit) (ev : UnitEvents) : Bool := ev.done && u.mayEnd && u.busyIn != 1

/-- PEREQ may rise: BUSY is active and stays so, no piece is still to move, and ERROR has not changed. -/
def BusUnit.mayRequest (u : BusUnit) (ev : UnitEvents) : Bool :=
  u.busy && !u.ends ev && !u.pereq && u.errorFor.isNone

/-- PEREQ rises in this CLK. -/
def BusUnit.raises (u : BusUnit) (ev : UnitEvents) : Bool := u.mayRequest ev && ev.request != 0

/-- ERROR may change: BUSY is active and stays so, PEREQ has been inactive for three CLK and stays so (t34 for a change to
active; for one to inactive DESIGN CHOICE, log 38), and ERROR has not changed in this instruction. -/
def BusUnit.mayReport (u : BusUnit) (ev : UnitEvents) : Bool :=
  u.busy && u.busyIn != 1 && !u.ends ev && !u.pereq && !u.raises ev && decide (2 ≤ u.quietFor) && u.errorFor.isNone

/-- The instruction in progress may make ERROR inactive: it is FNINIT, FNCLEX, FNSTENV or FNSAVE (R357), and no other
opcode has been written since. -/
def BusUnit.mayClear (u : BusUnit) : Bool := u.clearsError && u.busyIn == 0

/-- One CLK of the data interface and control unit; `error` says that ERROR changes. When BUSY ends the operands of the
instruction have been used, and the FIFO is emptied (DESIGN CHOICE, log 38).
An opcode written while an instruction is in progress, on which the spec is silent (spec/70_reset_and_hazards.md R473): the
instruction in progress may still end in the next CLK; if it does not, its FIFO items, PEREQ and pieces are kept, its BUSY
runs into the new one's, whose three CLK start over, no request, FIFO move or end is honoured in the CLK of the start, and one
`done` then ends both (DESIGN CHOICE, log 38). -/
def BusUnit.clockUnit (u : BusUnit) (ev : UnitEvents) (error : Bool) : BusUnit :=
  if u.busyIn = 1 then
    { u with
      busy := true, busyIn := 0, busyFor := 0,
      quietFor := if u.busy then (if u.pereq then 0 else u.quietFor + 1) else 2,
      errorFor := none }
  else if u.ends ev then
    { u with busy := false, busyIn := u.busyIn - 1, busyFor := 0, pieces := 0, errorFor := none, fifo := [] }
  else if u.busy then
    { u with
      busyIn := u.busyIn - 1,
      busyFor := u.busyFor + 1,
      pereq := u.pereq || u.raises ev,
      pieces := if u.raises ev then ev.request else u.pieces,
      quietFor := if u.pereq then 0 else u.quietFor + 1,
      errorFor := if error then some 0 else u.errorFor.map (· + 1),
      fifo := u.fifo.drop ev.take ++ ev.push.toList }
  else { u with busyIn := u.busyIn - 1 }

/-- The NPX state the instruction in progress leaves, when the unit reports it: at any time while BUSY is active if ERROR
does not change, else only when ERROR may change (R366, R374), to inactive only under an instruction that may make it so
(R357). -/
def State.reported (s : State) (ev : UnitEvents) : Option Npx :=
  match ev.result with
  | some x =>
    if (s.bus.busy && x.sw.es == s.npx.sw.es) || (s.bus.mayReport ev && (x.sw.es || s.bus.mayClear)) then some x
    else none
  | none => none

/-! Reset and the minimum times (R356, R374, U17). -/

/-- The 387CLK2 periods of one CLK: two in synchronous mode, where 386CLK2 takes its place; in asynchronous mode one to
three, as the ratio of the clocks, 10:16 to 14:10, allows (R355). -/
def busTicks (p : BusPins) (ev : UnitEvents) : Nat := if p.ckm then 2 else max 1 (min 3 ev.ticks)

/-- One CLK of the minimum times. -/
def BusUnit.clockGaps (u : BusUnit) (n : Nat) : BusUnit :=
  { u with settle := u.settle - n, writeGap := u.writeGap - 1, dataGap := u.dataGap - 1, resetFor := 0 }

/-- A write ends in this CLK sooner than t31, t36 or t37 allow. All three are measured to the CLK in which READY ends the
write, that CLK included. For t31 this is a DESIGN CHOICE (log 44): its row of Table 5.4 names RESETIN alone, and whether the
50 periods run to the start (ADS) or to the end (READY) of the first opcode write cycle is not in the spec. The rows of t36
and t37 name READY, and are read as from READY to READY (DEDUCED, log 38). -/
def BusUnit.tooSoon (u : BusUnit) (p : BusPins) : Bool :=
  match u.phase, u.cycle with
  | .trs, some c =>
    !p.ready &&
      ((c.kind == .opcodeWrite && (u.settle != 0 || u.writeGap != 0)) ||
        (c.kind == .dataWrite && (u.writeGap != 0 || u.dataGap != 0)))
  | _, _ => false

/-- RESETIN falls in this CLK after fewer than 40 387CLK2 periods (t30). -/
def BusUnit.resetTooShort (u : BusUnit) : Bool := u.resetFor != 0 && decide (u.resetFor < 40)

/-- One CLK. RESETIN HIGH keeps the NPX in its reset state (R356, spec/70_reset_and_hazards.md R452); a system that breaks a
minimum time is refused (spec/93_implementation_defined.md U17). The draw counter advances, so that the free data of
different cycles are independent. -/
def busClock (s : State) (p : BusPins) (ev : UnitEvents) : Outcome :=
  let n := busTicks p ev
  if p.resetin then
    .next { s.hardReset with bus := { BusUnit.reset with resetFor := s.bus.resetFor + n } }
  else if s.bus.resetTooShort then .refused .busTiming
  else if (s.bus.clockGaps n).tooSoon p then .refused .busTiming
  else
    .next { s with
      npx := (s.reported ev).getD s.npx,
      bus := ((s.bus.clockGaps n).clockUnit ev ((s.reported ev).any fun x => x.sw.es != s.npx.sw.es)).clockPhase p ev,
      draws := s.draws + 1 }

end Sys2Proof.Machine
end

