-- ==== Sys2Proof/Safety.lean ====
section
/-! DEFINITION. What a good state of this machine is, and the words the claims are stated in: the value of a pattern,
correct rounding, when an instruction may run, and what it may touch. -/

namespace Sys2Proof.Machine

/-! Good states. -/

/-- ES and B are the OR of the unmasked flags (spec/10_state.md R28, spec/40_numerics_common.md R175). -/
def Npx.esLaw (x : Npx) : Prop := x.sw.es = unmaskedFlag x.cw x.sw ∧ x.sw.b = x.sw.es

/-- A tag that is not empty is the tag of the register's contents (R152). -/
def Npx.tagLaw (x : Npx) : Prop := ∀ k : Idx, x.tag k ≠ .empty → x.tag k = tagOf (x.reg k)

/-- The invariant of every instruction boundary: memory in canonical form; and ES, B and the tags lawful, unless
interrupt 9 has made the NPX state any value (R413). -/
def State.Inv (s : State) : Prop :=
  s.mem.wf = true ∧ (s.overrun = true ∨ (s.npx.esLaw ∧ s.npx.tagLaw))

/-- A run of k steps that stays in the spec: every step has a next state. -/
def safeRun : Nat → State → Prop
  | 0, _ => True
  | k + 1, s =>
    match step s with
    | .next t => safeRun k t
    | .fault _ => False
    | .refused _ => False

/-! Values (R141, R143, R161). -/

/-- val(x) of a finite pattern: (-1)^s * sig * 2^(e - 16383 - 63), with field 0 standing for e = 1 (R143). -/
def val (x : Ext) : ℚ :=
  (if signOf x then -1 else 1) * (sig x : ℚ) * (2 : ℚ) ^ ((max (bexp x) 1 : Nat) - 16446 : ℤ)

/-- Zero, denormal or normal (R142). -/
def finite (x : Ext) : Bool := classOf x == .zero || classOf x == .denormal || classOf x == .normal

/-- y is v rounded to a multiple of 2^u by the rounding control (R161): nearest with ties to the even multiple, down,
up, or toward zero. -/
def IsRounding {K : Type} [Field K] [LinearOrder K] (rc : BitVec 2) (v : K) (u : ℤ) (y : K) : Prop :=
  (∃ n : ℤ, y = n * (2 : K) ^ u) ∧
    match rc.toNat with
    | 0 => 2 * |y - v| ≤ (2 : K) ^ u ∧ (2 * |y - v| = (2 : K) ^ u → ∃ n : ℤ, y = 2 * n * (2 : K) ^ u)
    | 1 => y ≤ v ∧ v < y + (2 : K) ^ u
    | 2 => v ≤ y ∧ y < v + (2 : K) ^ u
    | _ => |y| ≤ |v| ∧ |v| < |y| + (2 : K) ^ u ∧ 0 ≤ y * v

/-- The value of a finite single or double pattern (spec/20_memory.md R76). -/
def formatVal (f : RealFormat) (y : Nat) : ℚ :=
  (if y.testBit (f.ew + f.fw) then -1 else 1) *
    ((if y / 2 ^ f.fw % 2 ^ f.ew = 0 then y % 2 ^ f.fw else 2 ^ f.fw + y % 2 ^ f.fw : Nat) : ℚ) *
    (2 : ℚ) ^ ((max (y / 2 ^ f.fw % 2 ^ f.ew) 1 : Nat) - f.bias - f.fw : ℤ)

/-- The exponent field of a single or double pattern. -/
def expField (f : RealFormat) (y : Nat) : Nat := y / 2 ^ f.fw % 2 ^ f.ew

/-- The class of a single or double pattern by its fields (spec/20_memory.md R76, R142). -/
def formatClass (f : RealFormat) (y : Nat) : Class :=
  if expField f y = f.ones then
    if y % 2 ^ f.fw = 0 then .infinity else if (y % 2 ^ f.fw).testBit (f.fw - 1) then .qnan else .snan
  else if expField f y = 0 then (if y % 2 ^ f.fw = 0 then .zero else .denormal)
  else .normal

/-- A single or double NaN as a register pattern: sign, integer bit 1, the fraction in the upper bits (R159). -/
def formatNan (f : RealFormat) (y : Nat) : Ext :=
  BitVec.ofBool (y.testBit (f.ew + f.fw)) ++ (0x7FFF : BitVec 15) ++ (1 : BitVec 1) ++
    BitVec.ofNat 63 (y % 2 ^ f.fw * 2 ^ (63 - f.fw))

/-- A finite register pattern that may be used while the denormal mask is `dm` (R168). -/
def usable (dm : Bool) (x : Ext) : Bool := finite x && (classOf x != .denormal || dm)

/-- |val(x)| < (2 - sqrt 2)/2, FYL2XP1's range: 1 - |val(x)| is above sqrt(1/2) (R308). -/
def InLogRange (x : Ext) : Prop := |val x| < 1 ∧ 1 < 2 * (1 - |val x|) ^ 2

/-- The magnitude lies where no result of any precision overflows or is tiny (R162, R163, R165). -/
def InRange {K : Type} [Field K] [LinearOrder K] (v : K) : Prop :=
  (2 : K) ^ (-16382 : ℤ) ≤ |v| ∧ |v| < (2 : K) ^ (16383 : ℤ)

/-- The exponent of the unit in the last place of p bits at v (R161). -/
def ulpExponent (p : Nat) (v : ℚ) : ℤ := Int.log 2 |v| - p + 1

/-- The number of a packed decimal: its sign bit over its eighteen digits (R78). -/
def decimalVal (y : Nat) : ℤ :=
  (if y.testBit 79 then -1 else 1) * (((List.range 18).map fun k => y / 16 ^ k % 16 * 10 ^ k).sum : Nat)

/-! When an instruction may run. -/

/-- The memory operand of an instruction and its size in bytes (spec/30_encoding.md R120, spec/20_memory.md R81). -/
def memForm (s : State) : Instr → Option (MemOperand × Nat)
  | .faddM32r _ m | .fmulM32r _ m | .fcomM32r _ m | .fcompM32r _ m | .fsubM32r _ m | .fsubrM32r _ m | .fdivM32r _ m
  | .fdivrM32r _ m | .fiaddM32i _ m | .fimulM32i _ m | .ficomM32i _ m | .ficompM32i _ m | .fisubM32i _ m
  | .fisubrM32i _ m | .fidivM32i _ m | .fidivrM32i _ m | .fldM32r _ m | .fstM32r _ m | .fstpM32r _ m | .fildM32i _ m
  | .fistM32i _ m | .fistpM32i _ m => some (m, 4)
  | .faddM64r _ m | .fmulM64r _ m | .fcomM64r _ m | .fcompM64r _ m | .fsubM64r _ m | .fsubrM64r _ m | .fdivM64r _ m
  | .fdivrM64r _ m | .fldM64r _ m | .fstM64r _ m | .fstpM64r _ m | .fildM64i _ m | .fistpM64i _ m => some (m, 8)
  | .fiaddM16i _ m | .fimulM16i _ m | .ficomM16i _ m | .ficompM16i _ m | .fisubM16i _ m | .fisubrM16i _ m
  | .fidivM16i _ m | .fidivrM16i _ m | .fildM16i _ m | .fistM16i _ m | .fistpM16i _ m | .fldcw _ m | .fstcw _ m
  | .fstswM16 _ m => some (m, 2)
  | .fldM80r _ m | .fstpM80r _ m | .fbld _ m | .fbstp _ m => some (m, 10)
  | .fldenv p m => some (m, envSize (s.format (.fldenv p m)))
  | .fstenv p m => some (m, envSize (s.format (.fstenv p m)))
  | .fsave p m => some (m, envSize (s.format (.fsave p m)) + 80)
  | .frstor p m => some (m, envSize (s.format (.frstor p m)) + 80)
  | _ => none

/-- The operand with its address computed, as the instruction computes it. -/
def operandOf (s : State) (i : Instr) : Option Operand :=
  (memForm s i).map fun q => s.cpu.operand i.prefixes q.1 q.2

/-- The instructions that write their memory operand (R120). -/
def stores : Instr → Bool
  | .fstM32r _ _ | .fstM64r _ _ | .fstpM32r _ _ | .fstpM64r _ _ | .fstpM80r _ _ | .fistM16i _ _ | .fistM32i _ _
  | .fistpM16i _ _ | .fistpM32i _ _ | .fistpM64i _ _ | .fbstp _ _ | .fstswM16 _ _ | .fstcw _ _ | .fstenv _ _
  | .fsave _ _ => true
  | _ => false

/-- The operand's segment is present and its limit holds the first piece, and every byte of the operand can be
transferred (R86, R91 to R93). -/
def accessOk (s : State) (i : Instr) : Bool :=
  match operandOf s i with
  | none => true
  | some o => o.seg.present && o.firstInLimit && s.cpu.transfer o (stores i) == .ok

/-- The two ways of R92 in which an operand whose first piece can be accessed spans inaccessible addresses: a later byte
beyond the segment's limit; or, all within it, an inaccessible byte between an accessible first piece and an accessible
last byte. No byte is in a device region, and a written segment may be written. -/
def SpansInaccessible (c : Cpu) (o : Operand) (write : Bool) : Prop :=
  (∀ k, k < o.bytes → c.inDevice (o.linear k) = false) ∧ (write = true → o.seg.writable = true) ∧
  (∀ k, k < o.firstPiece → c.accessible write (o.linear k) = true) ∧
  ((∃ k, k < o.bytes ∧ o.seg.contains (o.offset k) = false) ∨
    (c.accessible write (o.linear (o.bytes - 1)) = true ∧
      ∃ k, k < o.bytes ∧ c.accessible write (o.linear k) = false))

/-- The instruction reaches its operand: neither interrupt 7 nor 16 nor 13 is due, and the segment is present and holds
the first piece (R91, R93, R410 to R412). -/
def Reaches (s : State) (i : Instr) (o : Operand) : Prop :=
  s.cpu.em = false ∧ s.cpu.ts = false ∧ (s.npx.sw.es = false ∨ exemptFrom16 i = true) ∧ operandOf s i = some o ∧
    o.seg.present = true ∧ o.firstInLimit = true

/-- The stores that write their operand whatever the numbers are: control stores, FSTENV and FSAVE (R323, R325, R327,
R329). -/
def storesAlways : Instr → Bool
  | .fstswM16 _ _ | .fstcw _ _ | .fstenv _ _ | .fsave _ _ => true
  | _ => false

/-- The bytes at the operand's addresses, the first the least significant (R70). -/
def operandBytes (s : State) (i : Instr) : Nat :=
  match operandOf s i with
  | none => 0
  | some o => s.mem.readAll o.addrs

/-- The instructions that compute in the precision of CW.PC (R162). -/
def usesPrecision : Instr → Bool
  | .faddM32r _ _ | .fmulM32r _ _ | .fsubM32r _ _ | .fsubrM32r _ _ | .fdivM32r _ _ | .fdivrM32r _ _ | .fiaddM32i _ _
  | .fimulM32i _ _ | .fisubM32i _ _ | .fisubrM32i _ _ | .fidivM32i _ _ | .fidivrM32i _ _ | .faddM64r _ _
  | .fmulM64r _ _ | .fsubM64r _ _ | .fsubrM64r _ _ | .fdivM64r _ _ | .fdivrM64r _ _ | .fiaddM16i _ _
  | .fimulM16i _ _ | .fisubM16i _ _ | .fisubrM16i _ _ | .fidivM16i _ _ | .fidivrM16i _ _ | .faddStSti _ _
  | .fmulStSti _ _ | .fsubStSti _ _ | .fsubrStSti _ _ | .fdivStSti _ _ | .fdivrStSti _ _ | .faddStiSt _ _
  | .fmulStiSt _ _ | .fsubStiSt _ _ | .fsubrStiSt _ _ | .fdivStiSt _ _ | .fdivrStiSt _ _ | .faddp _ _ | .fmulp _ _
  | .fsubp _ _ | .fsubrp _ _ | .fdivp _ _ | .fdivrp _ _ | .fsqrt _ => true
  | _ => false

/-- No interrupt is due and no part of the spec is left open: the conditions under which an instruction runs to its end
(R176, R410 to R414; the precision by R40, the digits by R228). -/
def operable (s : State) (i : Instr) : Bool :=
  !s.cpu.em && !s.cpu.ts && (!s.npx.sw.es || exemptFrom16 i) && accessOk s i &&
    !(usesPrecision i && s.npx.cw.pc == 1) &&
    match i with
    | .fbld p m => !hasBadDigit (operandBytes s (.fbld p m))
    | _ => true

/-! What an instruction may touch. -/

/-- The physical registers whose contents or tag an instruction may change, by the destinations its rule names
(spec/41_data_transfer.md to spec/46_processor_control.md). -/
def touched (x : Npx) : Instr → List Idx
  | .fldM32r _ _ | .fldM64r _ _ | .fldM80r _ _ | .fildM16i _ _ | .fildM32i _ _ | .fildM64i _ _ | .fbld _ _ | .fldSti _ _
  | .fld1 _ | .fldl2t _ | .fldl2e _ | .fldpi _ | .fldlg2 _ | .fldln2 _ | .fldz _ => [x.sw.top - 1]
  | .fxtract _ | .fptan _ | .fsincos _ => [x.sw.top, x.sw.top - 1]
  | .faddM32r _ _ | .fmulM32r _ _ | .fsubM32r _ _ | .fsubrM32r _ _ | .fdivM32r _ _ | .fdivrM32r _ _ | .fiaddM32i _ _
  | .fimulM32i _ _ | .fisubM32i _ _ | .fisubrM32i _ _ | .fidivM32i _ _ | .fidivrM32i _ _ | .faddM64r _ _
  | .fmulM64r _ _ | .fsubM64r _ _ | .fsubrM64r _ _ | .fdivM64r _ _ | .fdivrM64r _ _ | .fiaddM16i _ _
  | .fimulM16i _ _ | .fisubM16i _ _ | .fisubrM16i _ _ | .fidivM16i _ _ | .fidivrM16i _ _ | .faddStSti _ _
  | .fmulStSti _ _ | .fsubStSti _ _ | .fsubrStSti _ _ | .fdivStSti _ _ | .fdivrStSti _ _ | .fsqrt _ | .fscale _
  | .fprem _ | .fprem1 _ | .frndint _ | .fabs _ | .fchs _ | .fsin _ | .fcos _ | .f2xm1 _ | .fstpM32r _ _
  | .fstpM64r _ _ | .fstpM80r _ _ | .fistpM16i _ _ | .fistpM32i _ _ | .fistpM64i _ _ | .fbstp _ _ | .fcompM32r _ _
  | .fcompM64r _ _ | .ficompM16i _ _ | .ficompM32i _ _ | .fcompSti _ _ | .fucomp _ _ => [x.sw.top]
  | .faddStiSt _ i | .fmulStiSt _ i | .fsubStiSt _ i | .fsubrStiSt _ i | .fdivStiSt _ i | .fdivrStiSt _ i | .fstSti _ i
  | .ffree _ i => [x.sw.top + i]
  | .faddp _ i | .fmulp _ i | .fsubp _ i | .fsubrp _ i | .fdivp _ i | .fdivrp _ i | .fstpSti _ i | .fxch _ i =>
    [x.sw.top + i, x.sw.top]
  | .fpatan _ | .fyl2x _ | .fyl2xp1 _ | .fcompp _ | .fucompp _ => [x.sw.top, x.sw.top + 1]
  | .finit _ | .fsave _ _ | .fldenv _ _ | .frstor _ _ => [0, 1, 2, 3, 4, 5, 6, 7]
  | _ => []

/-- How far TOP moves when the instruction delivers its result; none where TOP is loaded or reset (R22). -/
def topStep : Instr → Option Idx
  | .fldM32r _ _ | .fldM64r _ _ | .fldM80r _ _ | .fildM16i _ _ | .fildM32i _ _ | .fildM64i _ _ | .fbld _ _ | .fldSti _ _
  | .fld1 _ | .fldl2t _ | .fldl2e _ | .fldpi _ | .fldlg2 _ | .fldln2 _ | .fldz _ | .fxtract _ | .fptan _ | .fsincos _
  | .fdecstp _ => some 7
  | .fstpM32r _ _ | .fstpM64r _ _ | .fstpM80r _ _ | .fistpM16i _ _ | .fistpM32i _ _ | .fistpM64i _ _ | .fbstp _ _
  | .fcompM32r _ _ | .fcompM64r _ _ | .ficompM16i _ _ | .ficompM32i _ _ | .fcompSti _ _ | .fucomp _ _ | .faddp _ _
  | .fmulp _ _ | .fsubp _ _ | .fsubrp _ _ | .fdivp _ _ | .fdivrp _ _ | .fstpSti _ _ | .fpatan _ | .fyl2x _ | .fyl2xp1 _
  | .fincstp _ => some 1
  | .fcompp _ | .fucompp _ => some 2
  | .finit _ | .fsave _ _ | .fldenv _ _ | .frstor _ _ => none
  | _ => some 0

/-- The exception flags an instruction may set, by the `Exceptions:` clause of its rule and the table of
spec/60_exceptions.md R401; none for those that load or clear the flags. F2XM1 and FYL2XP1 may have PE, UE and OE out of
range (R306, R308). -/
def mayRaise : Instr → Option Signals
  | .faddM32r _ _ | .fmulM32r _ _ | .fsubM32r _ _ | .fsubrM32r _ _ | .fiaddM32i _ _ | .fimulM32i _ _ | .fisubM32i _ _
  | .fisubrM32i _ _ | .faddM64r _ _ | .fmulM64r _ _ | .fsubM64r _ _ | .fsubrM64r _ _ | .fiaddM16i _ _ | .fimulM16i _ _
  | .fisubM16i _ _ | .fisubrM16i _ _ | .faddStSti _ _ | .fmulStSti _ _ | .fsubStSti _ _ | .fsubrStSti _ _
  | .faddStiSt _ _ | .fmulStiSt _ _ | .fsubStiSt _ _ | .fsubrStiSt _ _ | .faddp _ _ | .fmulp _ _ | .fsubp _ _
  | .fsubrp _ _ | .fscale _ | .fptan _ | .f2xm1 _ | .fyl2xp1 _ =>
    some { ie := true, de := true, oe := true, ue := true, pe := true }
  | .fprem _ | .fprem1 _ => some { ie := true, de := true, ue := true }
  | .fsin _ | .fcos _ | .fsincos _ | .fpatan _ => some { ie := true, de := true, ue := true, pe := true }
  | .fdivM32r _ _ | .fdivrM32r _ _ | .fidivM32i _ _ | .fidivrM32i _ _ | .fdivM64r _ _ | .fdivrM64r _ _ | .fidivM16i _ _
  | .fidivrM16i _ _ | .fdivStSti _ _ | .fdivrStSti _ _ | .fdivStiSt _ _ | .fdivrStiSt _ _ | .fdivp _ _ | .fdivrp _ _
  | .fyl2x _ => some { ie := true, de := true, ze := true, oe := true, ue := true, pe := true }
  | .fsqrt _ | .frndint _ => some { ie := true, de := true, pe := true }
  | .fxtract _ => some { ie := true, de := true, ze := true }
  | .fldM32r _ _ | .fldM64r _ _ | .fcomM32r _ _ | .fcompM32r _ _ | .fcomM64r _ _ | .fcompM64r _ _ | .ficomM16i _ _
  | .ficompM16i _ _ | .ficomM32i _ _ | .ficompM32i _ _ | .fcomSti _ _ | .fcompSti _ _ | .fcompp _ | .fucom _ _
  | .fucomp _ _ | .fucompp _ | .ftst _ => some { ie := true, de := true }
  | .fstM32r _ _ | .fstM64r _ _ | .fstpM32r _ _ | .fstpM64r _ _ =>
    some { ie := true, oe := true, ue := true, pe := true }
  | .fistM16i _ _ | .fistM32i _ _ | .fistpM16i _ _ | .fistpM32i _ _ | .fistpM64i _ _ | .fbstp _ _ =>
    some { ie := true, pe := true }
  | .fldM80r _ _ | .fildM16i _ _ | .fildM32i _ _ | .fildM64i _ _ | .fbld _ _ | .fldSti _ _ | .fld1 _ | .fldl2t _
  | .fldl2e _ | .fldpi _ | .fldlg2 _ | .fldln2 _ | .fldz _ | .fstpM80r _ _ | .fstSti _ _ | .fstpSti _ _ | .fxch _ _
  | .fabs _ | .fchs _ => some { ie := true }
  | .fldenv _ _ | .frstor _ _ | .finit _ | .fclex _ | .fsave _ _ => none
  | .fldcw _ _ | .fstswM16 _ _ | .fstswAx _ | .fstcw _ _ | .fstenv _ _ | .fxam _ | .fincstp _ | .fdecstp _
  | .ffree _ _ | .fnop _ | .wait _ | .feni _ | .fdisi _ | .fsetpm _ => some {}

/-- The instructions that write the control word (spec/10_state.md R38; R321, R324, R327 to R330). -/
def loadsControl : Instr → Bool
  | .finit _ | .fldcw _ _ | .fstenv _ _ | .fldenv _ _ | .fsave _ _ | .frstor _ _ => true
  | _ => false

/-- The instructions that leave FIP, FDP and FOP as they were (R45, R336, R337). -/
def leavesPointers : Instr → Bool
  | .fclex _ | .fldcw _ _ | .fstcw _ _ | .fstswM16 _ _ | .fstswAx _ | .fstenv _ _ | .wait _ | .feni _ | .fdisi _
  | .fsetpm _ => true
  | _ => false

/-- The instructions that clear or load FIP, FDP and FOP (R45). -/
def replacesPointers : Instr → Bool
  | .finit _ | .fsave _ _ | .fldenv _ _ | .frstor _ _ => true
  | _ => false

/-- The instructions that push one value (R22). -/
def pushesOne : Instr → Bool
  | .fldM32r _ _ | .fldM64r _ _ | .fldM80r _ _ | .fildM16i _ _ | .fildM32i _ _ | .fildM64i _ _ | .fbld _ _ | .fldSti _ _
  | .fld1 _ | .fldl2t _ | .fldl2e _ | .fldpi _ | .fldlg2 _ | .fldln2 _ | .fldz _ => true
  | _ => false

/-! The reserved encodings, as R110 lists them. -/

/-- The second byte b1 of a reserved register form (MOD = 11) of row b0[2:0], less the three legacy opcodes. -/
def reservedReg (row b1 : Nat) : Bool :=
  match row with
  | 0 => false
  | 1 => (0xD1 ≤ b1 && b1 ≤ 0xDF) || b1 == 0xE2 || b1 == 0xE3 || b1 == 0xE6 || b1 == 0xE7 || b1 == 0xEF
  | 2 => (0xC0 ≤ b1 && b1 ≤ 0xE8) || 0xEA ≤ b1
  | 3 => (0xC0 ≤ b1 && b1 ≤ 0xDF) || (0xE5 ≤ b1)
  | 4 => 0xD0 ≤ b1 && b1 ≤ 0xDF
  | 5 => (0xC8 ≤ b1 && b1 ≤ 0xCF) || 0xF0 ≤ b1
  | 6 => (0xD0 ≤ b1 && b1 ≤ 0xD8) || (0xDA ≤ b1 && b1 ≤ 0xDF)
  | _ => (0xC0 ≤ b1 && b1 ≤ 0xDF) || 0xE1 ≤ b1

/-- The reserved memory forms: row b0[2:0] and b1[5:3]. -/
def reservedMem (row op : Nat) : Bool :=
  [(1, 1), (3, 1), (3, 4), (3, 6), (5, 1), (5, 5), (7, 1)].contains (row, op)

/-! What a result looks like. -/

/-- The bytes a state t holds at the operand that an instruction addressed from s. -/
def storedBytes (s t : State) (i : Instr) : Nat :=
  match operandOf s i with
  | none => 0
  | some o => t.mem.readAll o.addrs

/-- y is x with v pushed: TOP one less, v and its tag in the new ST(0), every other register and tag as before (R22,
R152). -/
def Pushed (x y : Npx) (v : Ext) : Prop :=
  y.sw.top = x.sw.top - 1 ∧ y.reg y.sw.top = v ∧ y.tag y.sw.top = tagOf v ∧
    ∀ k, k ≠ x.sw.top - 1 → y.reg k = x.reg k ∧ y.tag k = x.tag k

/-- y is x with the registers listed by physical number possibly changed, every other register and tag and TOP as
before. -/
def OnlyAt (x y : Npx) (ks : List Idx) : Prop :=
  y.sw.top = x.sw.top ∧ ∀ k, k ∉ ks → y.reg k = x.reg k ∧ y.tag k = x.tag k

/-- The six exception flags and SF are as before. -/
def SameFlags (x y : Npx) : Prop :=
  y.sw.ie = x.sw.ie ∧ y.sw.de = x.sw.de ∧ y.sw.ze = x.sw.ze ∧ y.sw.oe = x.sw.oe ∧ y.sw.ue = x.sw.ue ∧
    y.sw.pe = x.sw.pe ∧ y.sw.sf = x.sw.sf

/-- The flags of y are those of x with the exceptions g, and SF if `sf`, added, and no other (R170, R171). -/
def Raised (x y : Npx) (g : Signals) (sf : Bool := false) : Prop :=
  y.sw.ie = (x.sw.ie || g.ie) ∧ y.sw.de = (x.sw.de || g.de) ∧ y.sw.ze = (x.sw.ze || g.ze) ∧
    y.sw.oe = (x.sw.oe || g.oe) ∧ y.sw.ue = (x.sw.ue || g.ue) ∧ y.sw.pe = (x.sw.pe || g.pe) ∧ y.sw.sf = (x.sw.sf || sf)

/-- y is x with a result v delivered into ST(dest), its tag with it, and then the pops; every other register and tag as
before (R152, R154). -/
def Delivered (x y : Npx) (dest : Idx) (pops : Nat) (v : Ext) : Prop :=
  y.reg (x.phys dest) = v ∧ y.sw.top = x.sw.top + BitVec.ofNat 3 pops ∧
    (∀ k, k ≠ x.phys dest → y.reg k = x.reg k) ∧
    ∀ k : Idx, y.tag k =
      if (k - x.sw.top).toNat < pops then .empty else if k = x.phys dest then tagOf v else x.tag k

/-- y is x with a into ST(0) and then b pushed (R289, R302, R305). -/
def DeliveredPair (x y : Npx) (a b : Ext) : Prop :=
  y.sw.top = x.sw.top - 1 ∧ y.st 0 = b ∧ y.st 1 = a ∧ y.tag y.sw.top = tagOf b ∧ y.tag x.sw.top = tagOf a ∧
    ∀ k, k ≠ x.sw.top → k ≠ x.sw.top - 1 → y.reg k = x.reg k ∧ y.tag k = x.tag k

/-- y is x after n pops: TOP moved by n, those n tags empty, every register's contents and every other tag as before
(R154). -/
def Popped (n : Nat) (x y : Npx) : Prop :=
  y.sw.top = x.sw.top + BitVec.ofNat 3 n ∧ y.regs = x.regs ∧
    ∀ k : Idx, y.tag k = if (k - x.sw.top).toNat < n then .empty else x.tag k

/-! Operands. -/

/-- What a memory operand holds. -/
inductive MemNumber where
  | real (f : RealFormat)
  | int (bytes : Nat)
deriving DecidableEq, Repr

/-- The value of a memory operand's bytes. -/
def MemNumber.value (k : MemNumber) (y : Nat) : ℚ :=
  match k with
  | .real f => formatVal f y
  | .int n => ((BitVec.ofNat (8 * n) y).toInt : ℚ)

/-- The class of a memory operand; an integer is never denormal (R261). -/
def MemNumber.cls (k : MemNumber) (y : Nat) : Class :=
  match k with
  | .real f => formatClass f y
  | .int n => if y % 2 ^ (8 * n) = 0 then .zero else .normal

/-- The sign of a memory operand: its sign bit. -/
def MemNumber.negative (k : MemNumber) (y : Nat) : Bool :=
  match k with
  | .real f => y.testBit (f.ew + f.fw)
  | .int n => y.testBit (8 * n - 1)

/-- The register pattern of a NaN in memory. -/
def MemNumber.nan (k : MemNumber) (y : Nat) : Ext :=
  match k with
  | .real f => formatNan f y
  | .int _ => 0

/-- Where an operand comes from: ST(j), the memory operand, or the +0.0 of FTST. -/
inductive Source where
  | reg (j : Idx)
  | mem (k : MemNumber)
  | posZero
deriving DecidableEq, Repr

/-- An operand as the rules speak of it: whether its register is empty, its class and sign, its value where it is a
number, and its register pattern where it is a NaN. -/
structure Datum where
  empty : Bool
  cls : Class
  negative : Bool
  value : ℚ
  nan : Ext

/-- An operand of instruction i in state s. -/
def datum (s : State) (i : Instr) : Source → Datum
  | .reg j =>
    { empty := s.npx.empty j, cls := classOf (s.npx.st j), negative := signOf (s.npx.st j), value := val (s.npx.st j),
      nan := s.npx.st j }
  | .mem k =>
    let y := operandBytes s i
    { empty := false, cls := k.cls y, negative := k.negative y, value := k.value y, nan := k.nan y }
  | .posZero => { empty := false, cls := .zero, negative := false, value := 0, nan := 0 }

/-- A nonempty operand that is a finite number which may be used while the denormal mask is `dm` (R168). -/
def Datum.number (d : Datum) (dm : Bool) : Bool :=
  !d.empty && (d.cls == .zero || d.cls == .normal || (d.cls == .denormal && dm))

/-- A number, or an infinity. -/
def Datum.orderable (d : Datum) (dm : Bool) : Bool := d.number dm || (!d.empty && d.cls == .infinity)

/-- The value on the affine line: an infinity is beyond every number (R143). -/
def Datum.affine (d : Datum) : WithBot (WithTop ℚ) :=
  if d.cls = .infinity then (if d.negative then ⊥ else ((⊤ : WithTop ℚ) : WithBot (WithTop ℚ)))
  else ((d.value : WithTop ℚ) : WithBot (WithTop ℚ))

/-- A NaN. -/
def Datum.isNaN (d : Datum) : Bool := d.cls == .qnan || d.cls == .snan

/-! The two-operand instructions of spec/44_arithmetic.md. -/

/-- The exact value of an operation (R262). -/
def ArithOp.apply (op : ArithOp) (a b : ℚ) : ℚ :=
  match op with
  | .add => a + b
  | .sub => a - b
  | .mul => a * b
  | .div => a / b

/-- The operands for which R263 has an indeterminate form: opposite infinities added, like ones subtracted, 0 times
infinity, 0/0, infinity/infinity. -/
def Indeterminate (op : ArithOp) (a b : Datum) : Prop :=
  match op with
  | .add => a.cls = .infinity ∧ b.cls = .infinity ∧ a.negative ≠ b.negative
  | .sub => a.cls = .infinity ∧ b.cls = .infinity ∧ a.negative = b.negative
  | .mul => (a.cls = .infinity ∧ b.cls = .zero) ∨ (a.cls = .zero ∧ b.cls = .infinity)
  | .div => (a.cls = .infinity ∧ b.cls = .infinity) ∨ (a.cls = .zero ∧ b.cls = .zero)

/-- The sign of an exact-zero result (R145, R263): of a sum, the common sign, or plus unless RC rounds down; of a product or
quotient, the exclusive-or. -/
def zeroSign (op : ArithOp) (rc : BitVec 2) (a b : Bool) : Bool :=
  match op with
  | .add => if a = b then a else rc == 1
  | .sub => if a = !b then a else rc == 1
  | .mul | .div => a != b

/-- An infinity of a sign, as R142 has it. -/
def infinityBits (s : Bool) : Ext := BitVec.ofBool s ++ (0x7FFF8000000000000000 : BitVec 79)

/-- A zero of a sign. -/
def zeroBits (s : Bool) : Ext := BitVec.ofBool s ++ (0 : BitVec 79)

/-- The result of an operation with an infinite operand that is not indeterminate (R263). -/
def infiniteResult (op : ArithOp) (a b : Datum) : Ext :=
  match op with
  | .add => infinityBits (if a.cls = .infinity then a.negative else b.negative)
  | .sub => infinityBits (if a.cls = .infinity then a.negative else !b.negative)
  | .mul => infinityBits (a.negative != b.negative)
  | .div =>
    if a.cls = .infinity then infinityBits (a.negative != b.negative) else zeroBits (a.negative != b.negative)

/-- A register form: the operation, the left and right operands and the destination as ST numbers, and the pops. -/
structure RegArith where
  op : ArithOp
  left : Idx
  right : Idx
  dest : Idx
  pops : Nat
deriving DecidableEq, Repr

/-- The register forms as their rules write them (R266 to R283): `ST(0) <- ST(0) op ST(i)`, and so on. -/
def regArith : Instr → Option RegArith
  | .faddStSti _ i => some ⟨.add, 0, i, 0, 0⟩
  | .faddStiSt _ i => some ⟨.add, i, 0, i, 0⟩
  | .faddp _ i => some ⟨.add, i, 0, i, 1⟩
  | .fmulStSti _ i => some ⟨.mul, 0, i, 0, 0⟩
  | .fmulStiSt _ i => some ⟨.mul, i, 0, i, 0⟩
  | .fmulp _ i => some ⟨.mul, i, 0, i, 1⟩
  | .fsubStSti _ i => some ⟨.sub, 0, i, 0, 0⟩
  | .fsubStiSt _ i => some ⟨.sub, i, 0, i, 0⟩
  | .fsubp _ i => some ⟨.sub, i, 0, i, 1⟩
  | .fsubrStSti _ i => some ⟨.sub, i, 0, 0, 0⟩
  | .fsubrStiSt _ i => some ⟨.sub, 0, i, i, 0⟩
  | .fsubrp _ i => some ⟨.sub, 0, i, i, 1⟩
  | .fdivStSti _ i => some ⟨.div, 0, i, 0, 0⟩
  | .fdivStiSt _ i => some ⟨.div, i, 0, i, 0⟩
  | .fdivp _ i => some ⟨.div, i, 0, i, 1⟩
  | .fdivrStSti _ i => some ⟨.div, i, 0, 0, 0⟩
  | .fdivrStiSt _ i => some ⟨.div, 0, i, i, 0⟩
  | .fdivrp _ i => some ⟨.div, 0, i, i, 1⟩
  | _ => none

/-- The loads of a real or an integer (R201, R202, R205 to R207). -/
def numberLoad : Instr → Option MemNumber
  | .fldM32r _ _ => some (.real single)
  | .fldM64r _ _ => some (.real double)
  | .fildM16i _ _ => some (.int 2)
  | .fildM32i _ _ => some (.int 4)
  | .fildM64i _ _ => some (.int 8)
  | _ => none

/-- The stores of a real: the format, and the pops (R209, R210, R213, R214). -/
def realStore : Instr → Option (RealFormat × Nat)
  | .fstM32r _ _ => some (single, 0)
  | .fstM64r _ _ => some (double, 0)
  | .fstpM32r _ _ => some (single, 1)
  | .fstpM64r _ _ => some (double, 1)
  | _ => none

/-- The number of a real format's special patterns: sign, an exponent of all ones, and a fraction (R76). -/
def specialBits (f : RealFormat) (s : Bool) (frac : Nat) : Nat :=
  (if s then 2 ^ (f.ew + f.fw) else 0) + (2 ^ f.ew - 1) * 2 ^ f.fw + frac

/-- The stores of an integer: its size in bits, and the pops (R216 to R220). -/
def intStore : Instr → Option (Nat × Nat)
  | .fistM16i _ _ => some (16, 0)
  | .fistM32i _ _ => some (32, 0)
  | .fistpM16i _ _ => some (16, 1)
  | .fistpM32i _ _ => some (32, 1)
  | .fistpM64i _ _ => some (64, 1)
  | _ => none

/-- The stores of ST(0) to memory: the indefinite of the format stored (R160), and the pops. -/
def storeForm (i : Instr) : Option (Nat × Nat) :=
  match realStore i, intStore i with
  | some (f, n), _ => some (specialBits f true (2 ^ (f.fw - 1)), n)
  | none, some (b, n) => some (2 ^ (b - 1), n)
  | none, none =>
    match i with
    | .fstpM80r _ _ | .fbstp _ _ => some (0xFFFFC000000000000000, 1)
    | _ => none

/-- A memory form: the operation, what the operand holds, and whether the operand is the left one (R = 1). -/
structure MemArith where
  op : ArithOp
  number : MemNumber
  reversed : Bool
deriving DecidableEq, Repr

/-- The memory forms as their rules write them (R266 to R283): `ST(0) <- ST(0) op mem`, or `mem op ST(0)`. -/
def memArith : Instr → Option MemArith
  | .faddM32r _ _ => some ⟨.add, .real single, false⟩
  | .faddM64r _ _ => some ⟨.add, .real double, false⟩
  | .fiaddM16i _ _ => some ⟨.add, .int 2, false⟩
  | .fiaddM32i _ _ => some ⟨.add, .int 4, false⟩
  | .fmulM32r _ _ => some ⟨.mul, .real single, false⟩
  | .fmulM64r _ _ => some ⟨.mul, .real double, false⟩
  | .fimulM16i _ _ => some ⟨.mul, .int 2, false⟩
  | .fimulM32i _ _ => some ⟨.mul, .int 4, false⟩
  | .fsubM32r _ _ => some ⟨.sub, .real single, false⟩
  | .fsubM64r _ _ => some ⟨.sub, .real double, false⟩
  | .fisubM16i _ _ => some ⟨.sub, .int 2, false⟩
  | .fisubM32i _ _ => some ⟨.sub, .int 4, false⟩
  | .fsubrM32r _ _ => some ⟨.sub, .real single, true⟩
  | .fsubrM64r _ _ => some ⟨.sub, .real double, true⟩
  | .fisubrM16i _ _ => some ⟨.sub, .int 2, true⟩
  | .fisubrM32i _ _ => some ⟨.sub, .int 4, true⟩
  | .fdivM32r _ _ => some ⟨.div, .real single, false⟩
  | .fdivM64r _ _ => some ⟨.div, .real double, false⟩
  | .fidivM16i _ _ => some ⟨.div, .int 2, false⟩
  | .fidivM32i _ _ => some ⟨.div, .int 4, false⟩
  | .fdivrM32r _ _ => some ⟨.div, .real single, true⟩
  | .fdivrM64r _ _ => some ⟨.div, .real double, true⟩
  | .fidivrM16i _ _ => some ⟨.div, .int 2, true⟩
  | .fidivrM32i _ _ => some ⟨.div, .int 4, true⟩
  | _ => none

/-- An arithmetic form: the operation, its operands, the destination ST(dest), and the pops. -/
structure ArithForm where
  op : ArithOp
  left : Source
  right : Source
  dest : Idx
  pops : Nat
deriving DecidableEq, Repr

/-- The forms of FADD, FSUB, FSUBR, FMUL, FDIV and FDIVR, on registers and in memory (R265). -/
def arithForm (i : Instr) : Option ArithForm :=
  match regArith i with
  | some a => some ⟨a.op, .reg a.left, .reg a.right, a.dest, a.pops⟩
  | none =>
    (memArith i).map fun a =>
      if a.reversed then ⟨a.op, .mem a.number, .reg 0, 0, 0⟩ else ⟨a.op, .reg 0, .mem a.number, 0, 0⟩

/-- The exact value of a form's operation on numbers. -/
def ArithForm.exact (a : ArithForm) (s : State) (i : Instr) : ℚ :=
  a.op.apply (datum s i a.left).value (datum s i a.right).value

/-- Both operands are numbers that may be used, and a divisor is not zero. -/
def ArithForm.numbers (a : ArithForm) (s : State) (i : Instr) : Prop :=
  (datum s i a.left).number s.npx.cw.dm = true ∧ (datum s i a.right).number s.npx.cw.dm = true ∧
    (a.op = .div → (datum s i a.right).value ≠ 0)

/-- An operand is a denormal (R261). -/
def ArithForm.denormal (a : ArithForm) (s : State) (i : Instr) : Bool :=
  (datum s i a.left).cls == .denormal || (datum s i a.right).cls == .denormal

/-- An instruction that delivers one result computed from, or copied out of, its operands. -/
structure ResultForm where
  sources : List Source
  dest : Idx
  pops : Nat
deriving DecidableEq, Repr

/-- Some operand of a form is of a class. -/
def ResultForm.hasClass (f : ResultForm) (s : State) (i : Instr) (c : Class) : Bool :=
  f.sources.any fun q => (datum s i q).cls == c

/-- Some operand of a form is an empty register. -/
def ResultForm.hasEmpty (f : ResultForm) (s : State) (i : Instr) : Bool := f.sources.any fun q => (datum s i q).empty

/-- The instructions that compute one result (spec/44_arithmetic.md, spec/45_transcendental.md), less FABS and FCHS. -/
def computes (i : Instr) : Option ResultForm :=
  match arithForm i with
  | some a => some ⟨[a.left, a.right], a.dest, a.pops⟩
  | none =>
    match i with
    | .fscale _ | .fprem _ | .fprem1 _ => some ⟨[.reg 0, .reg 1], 0, 0⟩
    | .fpatan _ | .fyl2x _ | .fyl2xp1 _ => some ⟨[.reg 0, .reg 1], 1, 1⟩
    | .fsqrt _ | .frndint _ | .f2xm1 _ | .fsin _ | .fcos _ => some ⟨[.reg 0], 0, 0⟩
    | _ => none

/-- The copies of ST(0) to a register (R211, R215). -/
def copies : Instr → Option ResultForm
  | .fstSti _ j => some ⟨[.reg 0], j, 0⟩
  | .fstpSti _ j => some ⟨[.reg 0], j, 1⟩
  | _ => none

/-- The instructions that replace ST(0) and push (R289, R302, R305). -/
def makesPair : Instr → Bool
  | .fxtract _ | .fptan _ | .fsincos _ => true
  | _ => false

/-- The partial remainders, whose C1 is a bit of the quotient (R32, R286, R287). -/
def reduces : Instr → Bool
  | .fprem _ | .fprem1 _ => true
  | _ => false

/-! Special operands (spec/44_arithmetic.md R284 to R289, spec/45_transcendental.md R301 to R308). -/

/-- What a row for special operands gives: an invalid operation and its masked response, a zero divide and its masked
response, or a result without either. -/
inductive SpecialRow (α : Type) where
  | invalid (v : α)
  | zeroDivide (v : α)
  | value (v : α)
deriving DecidableEq, Repr

/-- What the instruction delivers, if it delivers. -/
def SpecialRow.result {α : Type} : SpecialRow α → α
  | .invalid v | .zeroDivide v | .value v => v

/-- What it signals; `den` says that an operand is a denormal (R168, R172: an invalid operation comes before it, an unmasked
one before a zero divide). -/
def SpecialRow.signals {α : Type} (r : SpecialRow α) (cw : ControlWord) (den : Bool) : Signals :=
  match r with
  | .invalid _ => { ie := true }
  | .zeroDivide _ => { de := den, ze := !den || cw.dm }
  | .value _ => { de := den }

/-- It delivers: what it signals is masked (R173). -/
def SpecialRow.delivers {α : Type} (r : SpecialRow α) (cw : ControlWord) (den : Bool) : Bool :=
  match r with
  | .invalid _ => cw.im
  | .zeroDivide _ => cw.zm && (!den || cw.dm)
  | .value _ => !den || cw.dm

/-- The rows for zeros, infinities, negative numbers and 1.0 of the instructions that deliver one result: x = ST(0),
y = ST(1), each a zero, a finite number or an infinity; an instruction of one operand does not look at y. In the rules'
order; none where no row applies. -/
def specialRow (i : Instr) (x y : Ext) : Option (SpecialRow Ext) :=
  let sx := signOf x
  let sy := signOf y
  let xZero := classOf x == .zero
  let yZero := classOf y == .zero
  let xInf := classOf x == .infinity
  let yInf := classOf y == .infinity
  let indefinite : Ext := 0xFFFFC000000000000000
  match i with
  | .fsqrt _ =>
    if xZero then some (.value x) else if sx then some (.invalid indefinite)
    else if xInf then some (.value x) else none
  | .frndint _ => if xZero || xInf then some (.value x) else none
  | .fscale _ =>
    if (xZero && yInf && !sy) || (xInf && yInf && sy) then some (.invalid indefinite)
    else if yInf then some (.value (if sy then zeroBits sx else infinityBits sx))
    else if xInf || xZero then some (.value x)
    else none
  | .fprem _ | .fprem1 _ =>
    if xInf || yZero then some (.invalid indefinite)
    else if yInf || xZero then some (.value x)
    else none
  | .fsin _ => if xInf then some (.invalid indefinite) else if xZero then some (.value x) else none
  | .fcos _ =>
    if xInf then some (.invalid indefinite) else if xZero then some (.value 0x3FFF8000000000000000) else none
  | .fpatan _ =>
    if (yZero && !sx) || (!yInf && xInf && !sx) then some (.value (zeroBits sy)) else none
  | .f2xm1 _ =>
    if xZero || x == 0x3FFF8000000000000000 then some (.value x)
    else if x == 0xBFFF8000000000000000 then some (.value 0xBFFE8000000000000000)
    else none
  | .fyl2x _ =>
    let oneX := x == 0x3FFF8000000000000000
    let below1 := decide (val x < 1)
    if (sx && !xZero) || (xZero && yZero) || (xInf && yZero) || (oneX && yInf) then some (.invalid indefinite)
    else if xZero then some (if yInf then .value (infinityBits !sy) else .zeroDivide (infinityBits !sy))
    else if xInf then some (.value (infinityBits sy))
    else if oneX then some (.value (zeroBits sy))
    else if yInf then some (.value (infinityBits (if below1 then !sy else sy)))
    else if yZero then some (.value (zeroBits (if below1 then !sy else sy)))
    else none
  | .fyl2xp1 _ =>
    if xInf then none
    else if xZero && yInf then some (.invalid indefinite)
    else if xZero then some (.value (zeroBits (sx != sy)))
    else if yInf then some (.value (infinityBits (sx != sy)))
    else if yZero then some (.value (zeroBits (sx != sy)))
    else none
  | _ => none

/-- The rows of FXTRACT, FPTAN and FSINCOS for every operand that is no nonzero number: what they leave in ST(1) and in
ST(0). -/
def pairRow (i : Instr) (x : Ext) : Option (SpecialRow (Ext × Ext)) :=
  let indefinite : Ext := 0xFFFFC000000000000000
  match classOf x, i with
  | .unsupported, _ => some (.invalid (indefinite, indefinite))
  | .snan, _ => some (.invalid (quiet x, quiet x))
  | .qnan, _ => some (.value (x, x))
  | .infinity, .fxtract _ => some (.value (infinityBits false, x))
  | .infinity, _ => some (.invalid (indefinite, indefinite))
  | .zero, .fxtract _ => some (.zeroDivide (infinityBits true, x))
  | .zero, _ => some (.value (x, 0x3FFF8000000000000000))
  | .denormal, _ | .normal, _ => none

/-- A comparison of ST(0) with a register: the register's ST number (none: +0.0), and the pops (R233 to R245). -/
def regCompare : Instr → Option (Option Idx × Nat)
  | .fcomSti _ i => some (some i, 0)
  | .fcompSti _ i => some (some i, 1)
  | .fcompp _ => some (some 1, 2)
  | .fucom _ i => some (some i, 0)
  | .fucomp _ i => some (some i, 1)
  | .fucompp _ => some (some 1, 2)
  | .ftst _ => some (none, 0)
  | _ => none

/-- The ordered comparisons, which signal a quiet NaN as well (R230). -/
def ordered : Instr → Bool
  | .fucom _ _ | .fucomp _ _ | .fucompp _ => false
  | _ => true

/-- A comparison of ST(0) with memory: what the operand holds, and the pops (R231 to R241). -/
def memCompare : Instr → Option (MemNumber × Nat)
  | .fcomM32r _ _ => some (.real single, 0)
  | .fcompM32r _ _ => some (.real single, 1)
  | .fcomM64r _ _ => some (.real double, 0)
  | .fcompM64r _ _ => some (.real double, 1)
  | .ficomM16i _ _ => some (.int 2, 0)
  | .ficompM16i _ _ => some (.int 2, 1)
  | .ficomM32i _ _ => some (.int 4, 0)
  | .ficompM32i _ _ => some (.int 4, 1)
  | _ => none

/-- A comparison of ST(0): with what, and the pops. -/
def compareForm (i : Instr) : Option (Source × Nat) :=
  match regCompare i with
  | some (some j, n) => some (.reg j, n)
  | some (none, n) => some (.posZero, n)
  | none => (memCompare i).map fun q => (.mem q.1, q.2)

/-- C3, C2, C0 after a comparison of two numbers or infinities (R230): greater 000, less 001, equal 100. -/
def OrderCode {K : Type} [LinearOrder K] (w : StatusWord) (a b : K) : Prop :=
  w.c2 = false ∧ (w.c0 = true ↔ a < b) ∧ (w.c3 = true ↔ a = b)

/-- The significand width that PC selects: 24, 53 or 64 bits (R40). -/
def precisionBits (pc : BitVec 2) : Nat := if pc = 0 then 24 else if pc = 2 then 53 else 64

/-! The bus (spec/47_hardware_interface.md). -/

/-- What every state of the bus unit keeps: PEREQ is active exactly while a piece of the operand is still to move (R357),
it and ERROR's change belong to an instruction in progress (R366, R374), and no instruction is in progress before an
opcode has been written (spec/70_reset_and_hazards.md R452). -/
def BusUnit.Inv (u : BusUnit) : Prop :=
  (u.pereq = true ↔ u.pieces ≠ 0) ∧ (u.pereq = true → u.busy = true) ∧ (u.errorFor ≠ none → u.busy = true) ∧
    (u.opcode = none → u.busy = false ∧ u.busyIn = 0)

/-- A bus cycle of type k ends in this CLK: READY is active (LOW) in one of its TRS states (R370). -/
def BusUnit.cycleEnds (u : BusUnit) (p : BusPins) (k : CycleType) : Prop :=
  u.phase = .trs ∧ p.ready = false ∧ ∃ n, u.cycle = some { kind := k, trs := n }

end Sys2Proof.Machine
end

