-- ==== Sys2Proof/Certificates/Slice0/Obligations.lean ====
section
/-! DEFINITION. The statements for the provers, in the words of Sys2Proof/Safety.lean. Each docstring names the rule of
spec/ it comes from, and the log entry where a clause is the model's choice. -/

open Sys2Proof Sys2Proof.Machine

/-! Encoding (spec/30_encoding.md). -/

/-- Decoding the encoding of a well-formed instruction, with anything after it, gives the instruction and the rest back
(R100 to R112). -/
def Obligations.DecodeInvertsEncode : Prop :=
  ∀ (a32 : Bool) (i : Instr) (rest : List Byte), i.wellFormed a32 = true → decode a32 (encode i ++ rest) = .ok (i, rest)

/-- What decodes is the encoding of what it decodes to: no bit of the bytes taken is dropped, and an instruction of at
most fifteen bytes is well-formed (R100 to R112; fifteen is log 22). -/
def Obligations.DecodedBytesAreTheEncoding : Prop :=
  ∀ (a32 : Bool) (bs rest : List Byte) (i : Instr), decode a32 bs = .ok (i, rest) →
    encode i ++ rest = bs ∧ (i.length ≤ 15 → i.wellFormed a32 = true)

/-- Exactly the encodings R110 lists are reserved: a register form by its second byte, a memory form by its row and
b1[5:3], whatever bytes follow. The three legacy opcodes are instructions (LEGACY_NOP, log 20). -/
def Obligations.ReservedEncodingsAreThoseListed : Prop :=
  ∀ (a32 : Bool) (row : BitVec 3) (b1 : Byte) (bs : List Byte),
    (b1.extractLsb' 6 2 = 3 →
      (decode a32 (((0b11011 : BitVec 5) ++ row : BitVec 8) :: b1 :: bs) = .error .reserved ↔
        reservedReg row.toNat b1.toNat = true)) ∧
    (b1.extractLsb' 6 2 ≠ 3 →
      (decode a32 (((0b11011 : BitVec 5) ++ row : BitVec 8) :: b1 :: bs) = .error .reserved ↔
        reservedMem row.toNat (b1.extractLsb' 3 3).toNat = true))

/-- Words written out from the maps R108 and R109 and the address forms of R112 decode to the instructions they stand
for. -/
def Obligations.SampleWordsDecode : Prop :=
  decode true [0xD9, 0xE8] = .ok (.fld1 [], []) ∧
  decode true [0xDE, 0xC1] = .ok (.faddp [] 1, []) ∧
  decode true [0xDE, 0xE9] = .ok (.fsubp [] 1, []) ∧
  decode true [0xDC, 0xE2] = .ok (.fsubrStiSt [] 2, []) ∧
  decode true [0xD8, 0xD3] = .ok (.fcomSti [] 3, []) ∧
  decode true [0x9B, 0xDB, 0xE3] = .ok (.wait [], [0xDB, 0xE3]) ∧
  decode true [0xD9, 0x05, 0x78, 0x56, 0x34, 0x12] = .ok (.fldM32r [] (.disp32 0x12345678), []) ∧
  decode true [0xDD, 0x5C, 0x8E, 0xF8] = .ok (.fstpM64r [] (.sib 2 (some .ecx) .esi (.d8 0xF8)), []) ∧
  decode false [0x26, 0xDF, 0x6E, 0x10] = .ok (.fildM64i [.seg .es] (.base16 .bp (.d8 0x10)), []) ∧
  decode false [0x67, 0xDF, 0x30] = .ok (.fbstp [.adSize] (.base32 .eax .none), []) ∧
  decode false [0xF3, 0xD9, 0xE8] = .error .lockOrRepeat ∧
  decode false [0x90] = .error .notNpx

/-! Steps (spec/00_scope.md R17, spec/30_encoding.md R107). -/

/-- A step runs the decoded instruction: with no interrupt pending, when the bytes at CS:EIP decode to i, none of i's
bytes was written by an NPX store (log 26) and i ends before the end of the code segment and of the address space (R24,
log 27), a step is exec of i; the step adds nothing around it. The same from memory: when the bytes of a well-formed
instruction's encoding stand at CS:EIP, readable and within these ends. Where the byte after i would be beyond the limit of
CS, beyond offset 0FFFFh of a small segment, or beyond linear address 0FFFFFFFFh, the step is refused, unless interrupt 7
comes first (R24, D3; that the byte after i counts, and that the address space ends at that linear address, is DEDUCED: log
27). -/
def Obligations.StepRunsDecodedInstruction : Prop :=
  (∀ (s : State) (i : Instr) (rest : List Byte), s.cpu.interrupt = none →
    decode s.cpu.adSize32 s.code = .ok (i, rest) →
    (∀ k, k < i.length → s.codeAddr k ∉ s.mem.npxStored) →
    s.codeInLimit i.length = true → step s = exec i s) ∧
  (∀ (s : State) (i : Instr), s.cpu.interrupt = none → i.wellFormed s.cpu.adSize32 = true →
    (∀ k, k < i.length →
      s.codeInLimit k = true ∧ s.cpu.accessible false (s.codeAddr k) = true ∧ s.codeAddr k ∉ s.mem.npxStored ∧
        s.mem.read (s.codeAddr k) = (encode i).getD k 0) →
    s.codeInLimit i.length = true → step s = exec i s) ∧
  ∀ (s : State) (i : Instr) (rest : List Byte), s.cpu.interrupt = none → s.cpu.em = false → s.cpu.ts = false →
    decode s.cpu.adSize32 s.code = .ok (i, rest) →
    (∀ k, k < i.length → s.codeAddr k ∉ s.mem.npxStored) →
    (s.cpu.cs.limit.toNat < s.cpu.eip.toNat + i.length ∨
      (s.cpu.cs.big = false ∧ 2 ^ 16 ≤ s.cpu.eip.toNat + i.length) ∨
      2 ^ 32 ≤ s.cpu.cs.base.toNat + (s.cpu.eip.toNat + i.length)) →
    step s = .refused .codeSegmentEnd

/-- A raised interrupt is entered at the handler the host has for its vector, and ends the run when it has none (R423;
the handler fields are log 28). -/
def Obligations.StepEntersHandler : Prop :=
  ∀ (s : State) (t : Interrupt), s.cpu.interrupt = some t →
    (∀ h, s.cpu.handler t.vector = some h →
      step s = .next { s with cpu := { s.cpu with cs := h.cs, eip := h.off, interrupt := none, taken := some t } }) ∧
    (s.cpu.handler t.vector = none → step s = .refused .noHandler)

/-! Reset, and the invariant of every step. -/

/-- The machine after reset meets the invariant. -/
def Obligations.ResetMeetsInvariant : Prop := State.reset.Inv

/-- Every step keeps the invariant: memory in canonical form; ES and B the OR of the unmasked flags (R28, R175) and every
tag that is not empty the tag of its register (R152), unless interrupt 9 has made the NPX state any value (R413). -/
def Obligations.EveryStepKeepsInvariant : Prop :=
  ∀ (s t : State), s.Inv → step s = .next t → t.Inv

/-- The values of R61: after reset CW = 037Eh, SW = 8081h, all registers empty, BUSY and PEREQ inactive, the bus in TI;
FNINIT leaves CW = 037Fh, SW = 0000h, all registers empty, FIP, FDP and FOP zero, and the data registers as they were
(R321), and it runs also with ES set. -/
def Obligations.ResetAndFninitValues : Prop :=
  (State.reset.npx.cw = ControlWord.ofBits 0x037E ∧ State.reset.npx.sw.toBits = 0x8081 ∧
    (∀ k, State.reset.npx.tag k = .empty) ∧ State.reset.bus.phase = .ti ∧ State.reset.bus.busy = false ∧
    State.reset.bus.pereq = false) ∧
  ∀ (s : State) (p : List PrefixByte), s.cpu.em = false → s.cpu.ts = false →
    ∃ t, exec (.finit p) s = .next t ∧ t.npx.cw = ControlWord.ofBits 0x037F ∧ t.npx.sw.toBits = 0 ∧
      (∀ k, t.npx.tag k = .empty) ∧ t.npx.regs = s.npx.regs ∧ t.npx.fip = Pointer.zero ∧ t.npx.fdp = Pointer.zero ∧
      t.npx.fop = 0 ∧ t.mem = s.mem

/-! Frames: what every instruction leaves alone. -/

/-- No NPX instruction changes the host but for EIP, the pending interrupt and, FSTSW AX alone, AX; none touches the bus
unit (R20, R23). -/
def Obligations.HostFrame : Prop :=
  ∀ (i : Instr) (s t : State), exec i s = .next t →
    { t.cpu with eip := s.cpu.eip, eax := s.cpu.eax, interrupt := s.cpu.interrupt } = s.cpu ∧ t.bus = s.bus ∧
      ((∀ p, i ≠ .fstswAx p) → t.cpu.eax = s.cpu.eax) ∧
      t.cpu.eax.extractLsb' 16 16 = s.cpu.eax.extractLsb' 16 16

/-- Every byte of memory reads as before, but those of a storing instruction's operand, at the addresses the instruction
computes (R81, R120); also when it ends in an interrupt. -/
def Obligations.MemoryFrame : Prop :=
  ∀ (i : Instr) (s t : State), exec i s = .next t →
    ∀ a, (∀ o, stores i = true → operandOf s i = some o → a ∉ o.addrs) → t.mem.read a = s.mem.read a

/-- Every data register and tag is unchanged but those the instruction's rule names (`touched`), and TOP moves by the
instruction's pushes and pops or not at all (R22, R29). -/
def Obligations.RegisterFrame : Prop :=
  ∀ (i : Instr) (s t : State), exec i s = .next t → s.cpu.interrupt = none → t.cpu.interrupt = none →
    (∀ k, k ∉ touched s.npx i → t.npx.reg k = s.npx.reg k ∧ t.npx.tag k = s.npx.tag k) ∧
      ∀ d, topStep i = some d → t.npx.sw.top = s.npx.sw.top ∨ t.npx.sw.top = s.npx.sw.top + d

/-- Exception flags are sticky, and an instruction sets only those it may raise (R36, R170); SF is set only with IE
(R35). -/
def Obligations.FlagFrame : Prop :=
  ∀ (i : Instr) (s t : State) (g : Signals), exec i s = .next t → s.cpu.interrupt = none → t.cpu.interrupt = none →
    mayRaise i = some g →
    (t.npx.sw.ie = (s.npx.sw.ie || (g.ie && t.npx.sw.ie))) ∧ (t.npx.sw.de = (s.npx.sw.de || (g.de && t.npx.sw.de))) ∧
    (t.npx.sw.ze = (s.npx.sw.ze || (g.ze && t.npx.sw.ze))) ∧ (t.npx.sw.oe = (s.npx.sw.oe || (g.oe && t.npx.sw.oe))) ∧
    (t.npx.sw.ue = (s.npx.sw.ue || (g.ue && t.npx.sw.ue))) ∧ (t.npx.sw.pe = (s.npx.sw.pe || (g.pe && t.npx.sw.pe))) ∧
    (t.npx.sw.sf = (s.npx.sw.sf || (g.ie && t.npx.sw.ie && t.npx.sw.sf)))

/-- The control word is written by FINIT, FLDCW, FSTENV, FLDENV, FSAVE and FRSTOR alone (R38). That interrupt 9 keeps it
too is the model's choice, log 29: R413 and D22 keep CW, R92 counts it among what is lost. -/
def Obligations.ControlWordFrame : Prop :=
  ∀ (i : Instr) (s t : State), exec i s = .next t → loadsControl i = false → t.npx.cw = s.npx.cw

/-- What R44 and R45 say of FIP, FDP and FOP: an ESC instruction that starts records its first byte's address, its opcode
bits and its operand's address, in real-address and virtual-8086 mode also as a linear address, selector * 16 + offset
modulo 2^32 (PRESUMED, as R44 itself has it from general knowledge: log 34); the processor-control instructions and WAIT
leave them. That FENI, FDISI and FSETPM leave them too is the model's choice (LEGACY_NOP = nop, log 20). -/
def Obligations.PointersRecordTheInstruction : Prop :=
  ∀ (i : Instr) (s t : State), exec i s = .next t → s.cpu.interrupt = none → t.cpu.interrupt = none →
    (leavesPointers i = true → t.npx.fip = s.npx.fip ∧ t.npx.fdp = s.npx.fdp ∧ t.npx.fop = s.npx.fop) ∧
    (leavesPointers i = false → replacesPointers i = false →
      t.npx.fip.sel = s.cpu.cs.sel ∧ t.npx.fip.off = s.cpu.eip ∧
      (s.cpu.mode ≠ .protectedMode → t.npx.fip.lin.toNat = (s.cpu.cs.sel.toNat * 16 + s.cpu.eip.toNat) % 2 ^ 32) ∧
      (∃ (b0 b1 : Byte) (rest : List Byte), encode i = i.prefixes.map encodePrefix ++ b0 :: b1 :: rest ∧
        t.npx.fop = (b0.extractLsb' 0 3 ++ b1 : BitVec 11)) ∧
      ∀ o, operandOf s i = some o → t.npx.fdp.sel = o.seg.sel ∧ t.npx.fdp.off = o.off ∧
        (s.cpu.mode ≠ .protectedMode → t.npx.fdp.lin.toNat = (o.seg.sel.toNat * 16 + o.off.toNat) % 2 ^ 32))

/-! Interrupts (spec/60_exceptions.md). -/

/-- Interrupt 7 (R410): with TS set every instruction, and with EM set every ESC instruction, only raises it, at its first
byte, and no other state changes. It comes before anything else (R107): a step raises it as soon as the byte b0 after the
prefix bytes is an ESC opcode with EM or TS set, or WAIT with TS set, whatever bytes follow, reserved encodings included;
with neither bit set a reserved encoding is refused (R110). That bytes an NPX store wrote are refused first, as far as they
are looked at, is R90's (log 48). -/
def Obligations.InterruptSeven : Prop :=
  (∀ (i : Instr) (s : State), (s.cpu.ts = true ∨ (s.cpu.em = true ∧ ∀ p, i ≠ .wait p)) →
    exec i s = .next { s with cpu := { s.cpu with
      interrupt := some { vector := .v7, sel := s.cpu.cs.sel, off := s.cpu.eip } } }) ∧
  (∀ (s : State) (p : List PrefixByte) (b0 : Byte) (rest : List Byte), s.cpu.interrupt = none →
    s.code = p.map encodePrefix ++ b0 :: rest →
    ((b0.extractLsb' 3 5 = 0b11011 ∧ (s.cpu.em = true ∨ s.cpu.ts = true)) ∨ (b0 = 0x9B ∧ s.cpu.ts = true)) →
    (∀ k, k ≤ p.length → s.codeAddr k ∉ s.mem.npxStored) →
    step s = .next { s with cpu := { s.cpu with
      interrupt := some { vector := .v7, sel := s.cpu.cs.sel, off := s.cpu.eip } } }) ∧
  ∀ (s : State), s.cpu.interrupt = none → decode s.cpu.adSize32 s.code = .error .reserved →
    (∀ k, k < s.reservedLength → s.codeAddr k ∉ s.mem.npxStored) → s.cpu.em = false → s.cpu.ts = false →
    step s = .refused .reservedEncoding

/-- Interrupt 16 (R411): with ES set WAIT and every ESC instruction that passed R410 only raise it, at their first byte,
and no other state changes; but FNINIT, FNCLEX, FNSTSW in both forms, FNSTENV, FNSAVE and FNSTCW never do. -/
def Obligations.InterruptSixteen : Prop :=
  (∀ (i : Instr), exemptFrom16 i = true ↔
    (∃ p, i = .finit p) ∨ (∃ p, i = .fclex p) ∨ (∃ p m, i = .fstswM16 p m) ∨ (∃ p, i = .fstswAx p) ∨
      (∃ p m, i = .fstenv p m) ∨ (∃ p m, i = .fsave p m) ∨ (∃ p m, i = .fstcw p m)) ∧
  (∀ (i : Instr) (s : State), (s.cpu.em = false ∨ ∃ p, i = .wait p) → s.cpu.ts = false → s.npx.sw.es = true →
    exemptFrom16 i = false →
    exec i s = .next { s with cpu := { s.cpu with
      interrupt := some { vector := .v16, sel := s.cpu.cs.sel, off := s.cpu.eip } } }) ∧
  ∀ (i : Instr) (s t : State) (q : Interrupt), exemptFrom16 i = true → s.cpu.interrupt = none → exec i s = .next t →
    t.cpu.interrupt = some q → q.vector ≠ .v16

/-- Interrupt 13 (R412, R91): an operand whose first word or doubleword is not entirely within the limit of its segment
only raises it, once R410 and R411 have passed; so does one whose start offset, before it wraps, is beyond the limit
(DEDUCED, log 6). A null or not-present segment, and the stack segment's limit, are the host's own fault instead (R93).
The third clause is the model's choice (log 5): R86 asks only that operands in device
regions be refused, and here an operand that is read is, whichever of its bytes lies there, ahead of interrupt 9 and of the
host's own fault. -/
def Obligations.InterruptThirteen : Prop :=
  ∀ (i : Instr) (s : State) (o : Operand), s.cpu.em = false → s.cpu.ts = false →
    (s.npx.sw.es = false ∨ exemptFrom16 i = true) → operandOf s i = some o →
    (o.seg.present = true →
      (o.seg.contains o.off.toNat = false ∨ ∃ k, k < o.firstPiece ∧ o.seg.contains (o.offset k) = false) →
      (o.stack = false → exec i s = .next { s with cpu := { s.cpu with
        interrupt := some { vector := .v13, sel := s.cpu.cs.sel, off := s.cpu.eip } } }) ∧
      (o.stack = true → exec i s = .fault .hostAccess)) ∧
    (o.seg.present = false → exec i s = .fault .hostAccess) ∧
    (o.seg.present = true → o.firstInLimit = true → stores i = false →
      (∃ k, k < o.bytes ∧ s.cpu.inDevice (o.linear k) = true) → exec i s = .refused .deviceOperand)

/-- Interrupt 9 (R413), in R92's two ways: a later byte of the operand lies beyond the segment's limit, or an inaccessible
byte lies between an accessible first piece and an accessible last byte (`SpansInaccessible`). A loading instruction
raises it with memory kept; so does a storing one that must write, which keeps every byte outside its operand; and no
instruction raises it in any other case. That CW is kept is the model's choice (log 29). Byte k of an operand at offset a
is at offset (a + k) modulo 2^16 in a small segment and modulo 2^32 in a big one. -/
def Obligations.InterruptNine : Prop :=
  (∀ (o : Operand) (k : Nat),
    o.offset k = if o.seg.big then (o.off.toNat + k) % 2 ^ 32 else (o.off.toNat + k) % 2 ^ 16) ∧
  (∀ (i : Instr) (s : State) (o : Operand), Reaches s i o → stores i = false → SpansInaccessible s.cpu o false →
    ∃ t q, exec i s = .next t ∧ t.cpu.interrupt = some q ∧ q.vector = .v9 ∧ t.npx.cw = s.npx.cw ∧ t.mem = s.mem) ∧
  (∀ (i : Instr) (s : State) (o : Operand), Reaches s i o → stores i = true → SpansInaccessible s.cpu o true →
    (storesAlways i = true ∨ (s.npx.cw.im = true ∧ s.npx.cw.om = true ∧ s.npx.cw.um = true)) →
    ∃ t q, exec i s = .next t ∧ t.cpu.interrupt = some q ∧ q.vector = .v9 ∧ t.npx.cw = s.npx.cw ∧
      ∀ a, a ∉ o.addrs → t.mem.read a = s.mem.read a) ∧
  ∀ (i : Instr) (s t : State) (q : Interrupt), exec i s = .next t → s.cpu.interrupt = none →
    t.cpu.interrupt = some q → q.vector = .v9 →
    ∃ o, Reaches s i o ∧ SpansInaccessible s.cpu o (stores i) ∧ t.npx.cw = s.npx.cw ∧
      ∀ a, a ∉ o.addrs → t.mem.read a = s.mem.read a

/-- Every instruction runs to its end when no interrupt is due, its operand can be accessed, and the spec leaves nothing
of it open (`operable`: R40, R91 to R93, R228, R410 to R414): it answers a next state with no interrupt raised, the
program counter past its bytes (R24). For FENI, FDISI and FSETPM this is the model's choice, LEGACY_NOP = nop (log 20):
the spec's default is to refuse them. -/
def Obligations.EveryOperableInstructionCompletes : Prop :=
  ∀ (i : Instr) (s : State), operable s i = true →
    ∃ t, exec i s = .next t ∧ t.cpu.interrupt = s.cpu.interrupt ∧
      t.cpu.eip = s.cpu.eip + BitVec.ofNat 32 (encode i).length

/-! Exceptions (spec/40_numerics_common.md). -/

/-- R173: when an instruction sets IE, DE or ZE while it is unmasked, no data register, tag or TOP changes and nothing is
stored, and ES and B are set. -/
def Obligations.UnmaskedPreOperationChangesNothing : Prop :=
  ∀ (i : Instr) (s t : State) (g : Signals), exec i s = .next t → s.cpu.interrupt = none → t.cpu.interrupt = none →
    mayRaise i = some g →
    ((s.npx.sw.ie = false ∧ t.npx.sw.ie = true ∧ s.npx.cw.im = false) ∨
      (s.npx.sw.de = false ∧ t.npx.sw.de = true ∧ s.npx.cw.dm = false) ∨
      (s.npx.sw.ze = false ∧ t.npx.sw.ze = true ∧ s.npx.cw.zm = false)) →
    t.npx.regs = s.npx.regs ∧ t.npx.tags = s.npx.tags ∧ t.npx.sw.top = s.npx.sw.top ∧ t.mem = s.mem ∧
      t.npx.sw.es = true ∧ t.npx.sw.b = true

/-- Stack overflow (R153, R156, R171): a push onto a full stack, and FXTRACT, FPTAN or FSINCOS with no room, set IE and SF,
and C1 to 1. Masked, the push is made with the real indefinite, and the three leave it in ST(0) and ST(1) (R289, R302,
R305); unmasked, no register, tag or TOP changes. -/
def Obligations.StackOverflowResponses : Prop :=
  (∀ (i : Instr) (s : State), pushesOne i = true → operable s i = true → s.npx.full = true →
    (∀ p j, i = .fldSti p j → s.npx.empty j = false) →
    ∃ t, exec i s = .next t ∧ Raised s.npx t.npx { ie := true } true ∧ t.npx.sw.c1 = true ∧
      (s.npx.cw.im = true → Pushed s.npx t.npx 0xFFFFC000000000000000) ∧
      (s.npx.cw.im = false → OnlyAt s.npx t.npx [])) ∧
  ∀ (i : Instr) (s : State), makesPair i = true → operable s i = true → s.npx.empty 0 = false → s.npx.full = true →
    ∃ t, exec i s = .next t ∧ Raised s.npx t.npx { ie := true } true ∧ t.npx.sw.c1 = true ∧
      (s.npx.cw.im = true → DeliveredPair s.npx t.npx 0xFFFFC000000000000000 0xFFFFC000000000000000) ∧
      (s.npx.cw.im = false → OnlyAt s.npx t.npx [])

/-- Stack underflow (R155, R171): IE and SF are set and C1 is 0. Masked: an instruction that computes or copies one result
delivers the real indefinite and pops; FXTRACT, FPTAN and FSINCOS leave it in ST(0) and ST(1); FLD ST(i) pushes it, also
when there is no room (D34 over R204's pseudocode, log 47); a store writes the indefinite of its format and pops; a
comparison gives 111 and pops; FABS and FCHS leave it in ST(0) (what a masked FXCH leaves is ExchangeSwapsRegisters).
Unmasked, no register, tag, TOP or byte of memory changes. -/
def Obligations.StackUnderflowResponses : Prop :=
  (∀ (i : Instr) (s : State) (f : ResultForm), (computes i = some f ∨ copies i = some f) → operable s i = true →
    f.hasEmpty s i = true →
    ∃ t, exec i s = .next t ∧ Raised s.npx t.npx { ie := true } true ∧ t.npx.sw.c1 = false ∧
      (s.npx.cw.im = true → Delivered s.npx t.npx f.dest f.pops 0xFFFFC000000000000000) ∧
      (s.npx.cw.im = false → OnlyAt s.npx t.npx [])) ∧
  (∀ (i : Instr) (s : State), makesPair i = true → operable s i = true → s.npx.empty 0 = true →
    ∃ t, exec i s = .next t ∧ Raised s.npx t.npx { ie := true } true ∧ t.npx.sw.c1 = false ∧
      (s.npx.cw.im = true → DeliveredPair s.npx t.npx 0xFFFFC000000000000000 0xFFFFC000000000000000) ∧
      (s.npx.cw.im = false → OnlyAt s.npx t.npx [])) ∧
  (∀ (p : List PrefixByte) (j : Idx) (s : State), operable s (.fldSti p j) = true → s.npx.empty j = true →
    ∃ t, exec (.fldSti p j) s = .next t ∧ Raised s.npx t.npx { ie := true } true ∧ t.npx.sw.c1 = false ∧
      (s.npx.cw.im = true → Pushed s.npx t.npx 0xFFFFC000000000000000) ∧
      (s.npx.cw.im = false → OnlyAt s.npx t.npx [])) ∧
  (∀ (i : Instr) (s : State) (indef pops : Nat), storeForm i = some (indef, pops) → operable s i = true →
    s.mem.wf = true → s.npx.empty 0 = true →
    ∃ t, exec i s = .next t ∧ Raised s.npx t.npx { ie := true } true ∧ t.npx.sw.c1 = false ∧
      (s.npx.cw.im = true → storedBytes s t i = indef ∧ Popped pops s.npx t.npx) ∧
      (s.npx.cw.im = false → t.mem = s.mem ∧ Popped 0 s.npx t.npx)) ∧
  (∀ (i : Instr) (s : State) (y : Source) (pops : Nat), compareForm i = some (y, pops) → operable s i = true →
    (s.npx.empty 0 = true ∨ (datum s i y).empty = true) →
    ∃ t, exec i s = .next t ∧ Raised s.npx t.npx { ie := true } true ∧ t.npx.sw.c1 = false ∧
      (s.npx.cw.im = true → t.npx.sw.c3 = true ∧ t.npx.sw.c2 = true ∧ t.npx.sw.c0 = true ∧ Popped pops s.npx t.npx) ∧
      (s.npx.cw.im = false → Popped 0 s.npx t.npx)) ∧
  ∀ (p : List PrefixByte) (j : Idx) (s : State) (i : Instr),
    ((i = .fxch p j ∧ (s.npx.empty 0 = true ∨ s.npx.empty j = true)) ∨
      ((i = .fabs p ∨ i = .fchs p) ∧ s.npx.empty 0 = true)) → operable s i = true →
    ∃ t, exec i s = .next t ∧ Raised s.npx t.npx { ie := true } true ∧ t.npx.sw.c1 = false ∧
      (s.npx.cw.im = true → i ≠ .fxch p j → Delivered s.npx t.npx 0 0 0xFFFFC000000000000000) ∧
      (s.npx.cw.im = false → OnlyAt s.npx t.npx [])

/-! Data transfer (spec/41_data_transfer.md, spec/43_constants.md). -/

/-- FLD m32r, FLD m64r and FILD push the operand's number exactly, and DE alone is signalled, for a denormal (R201, R202,
R205 to R207, R226, R227); FBLD its decimal number, with its sign, and no flag (R208, R228). An infinity and a quiet NaN
are pushed as such, a signaling NaN signals IE and is pushed quieted (R159); an unmasked IE or DE pushes nothing. C1 is 0
(unmasked: log 30). -/
def Obligations.NumberLoadsAreExact : Prop :=
  (∀ (i : Instr) (s : State) (k : MemNumber), numberLoad i = some k → operable s i = true → s.npx.full = false →
    ∃ t, exec i s = .next t ∧ t.npx.sw.c1 = false ∧
      (let d := datum s i (.mem k)
       (d.number s.npx.cw.dm = true →
        Raised s.npx t.npx { de := d.cls == .denormal } ∧
          ∃ v, Pushed s.npx t.npx v ∧ finite v = true ∧ val v = d.value ∧ signOf v = d.negative) ∧
       (d.cls = .denormal → s.npx.cw.dm = false → Raised s.npx t.npx { de := true } ∧ OnlyAt s.npx t.npx []) ∧
       (d.cls = .infinity → Raised s.npx t.npx {} ∧ Pushed s.npx t.npx (infinityBits d.negative)) ∧
       (d.cls = .qnan → Raised s.npx t.npx {} ∧ Pushed s.npx t.npx d.nan) ∧
       (d.cls = .snan → Raised s.npx t.npx { ie := true } ∧
        (s.npx.cw.im = true → Pushed s.npx t.npx (quiet d.nan)) ∧ (s.npx.cw.im = false → OnlyAt s.npx t.npx [])))) ∧
  ∀ (p : List PrefixByte) (m : MemOperand) (s : State), operable s (.fbld p m) = true → s.npx.full = false →
    ∃ t v, exec (.fbld p m) s = .next t ∧ Pushed s.npx t.npx v ∧ finite v = true ∧
      val v = decimalVal (operandBytes s (.fbld p m)) ∧ signOf v = (operandBytes s (.fbld p m)).testBit 79 ∧
      t.npx.sw.c1 = false ∧ Raised s.npx t.npx {}

/-- FLD m80r pushes its ten bytes and FLD ST(i) a register that is not empty; FSTP m80r stores the ten bytes of ST(0), and
FST ST(i) and FSTP ST(i) copy them to ST(i); then the pop. Whatever the pattern, no flag changes and C1 is 0 (R203, R204,
R211, R212, R215). -/
def Obligations.CopiesKeepEveryBit : Prop :=
  (∀ (p : List PrefixByte) (m : MemOperand) (s : State), operable s (.fldM80r p m) = true → s.npx.full = false →
    ∃ t, exec (.fldM80r p m) s = .next t ∧ Pushed s.npx t.npx (BitVec.ofNat 80 (operandBytes s (.fldM80r p m))) ∧
      t.npx.sw.c1 = false ∧ SameFlags s.npx t.npx) ∧
  (∀ (p : List PrefixByte) (j : Idx) (s : State), operable s (.fldSti p j) = true → s.npx.full = false →
    s.npx.empty j = false →
    ∃ t, exec (.fldSti p j) s = .next t ∧ Pushed s.npx t.npx (s.npx.st j) ∧ t.npx.sw.c1 = false ∧
      SameFlags s.npx t.npx) ∧
  (∀ (p : List PrefixByte) (m : MemOperand) (s : State), operable s (.fstpM80r p m) = true → s.mem.wf = true →
    s.npx.empty 0 = false →
    ∃ t, exec (.fstpM80r p m) s = .next t ∧ storedBytes s t (.fstpM80r p m) = (s.npx.st 0).toNat ∧
      Popped 1 s.npx t.npx ∧ t.npx.sw.c1 = false ∧ SameFlags s.npx t.npx) ∧
  ∀ (i : Instr) (s : State) (f : ResultForm), copies i = some f → operable s i = true → s.npx.empty 0 = false →
    ∃ t, exec i s = .next t ∧ Delivered s.npx t.npx f.dest f.pops (s.npx.st 0) ∧ t.npx.sw.c1 = false ∧
      SameFlags s.npx t.npx

/-- The constants push the pattern each rule gives for the value of CW.RC; no flag changes (R251 to R257). The columns are
the second opcode byte after D9 and RC = 00, 01, 10 and 11. -/
def Obligations.ConstantLoads : Prop :=
  ∀ (p : List PrefixByte) (s : State) (i : Instr) (b : Byte) (n d u c : Ext),
    (i, b, n, d, u, c) ∈ ([
      (.fldz p, 0xEE, 0, 0, 0, 0),
      (.fld1 p, 0xE8, 0x3FFF8000000000000000, 0x3FFF8000000000000000, 0x3FFF8000000000000000, 0x3FFF8000000000000000),
      (.fldpi p, 0xEB, 0x4000C90FDAA22168C235, 0x4000C90FDAA22168C234, 0x4000C90FDAA22168C235, 0x4000C90FDAA22168C234),
      (.fldl2t p, 0xE9, 0x4000D49A784BCD1B8AFE, 0x4000D49A784BCD1B8AFE, 0x4000D49A784BCD1B8AFF, 0x4000D49A784BCD1B8AFE),
      (.fldl2e p, 0xEA, 0x3FFFB8AA3B295C17F0BC, 0x3FFFB8AA3B295C17F0BB, 0x3FFFB8AA3B295C17F0BC, 0x3FFFB8AA3B295C17F0BB),
      (.fldlg2 p, 0xEC, 0x3FFD9A209A84FBCFF799, 0x3FFD9A209A84FBCFF798, 0x3FFD9A209A84FBCFF799, 0x3FFD9A209A84FBCFF798),
      (.fldln2 p, 0xED, 0x3FFEB17217F7D1CF79AC, 0x3FFEB17217F7D1CF79AB, 0x3FFEB17217F7D1CF79AC, 0x3FFEB17217F7D1CF79AB)]
      : List (Instr × Byte × Ext × Ext × Ext × Ext)) →
    encode i = p.map encodePrefix ++ [0xD9, b] ∧ (operable s i = true → s.npx.full = false →
    ∃ t, exec i s = .next t ∧
      Pushed s.npx t.npx (if s.npx.cw.rc = 0 then n else if s.npx.cw.rc = 1 then d else if s.npx.cw.rc = 2 then u else c) ∧
      t.npx.sw.c1 = false ∧ SameFlags s.npx t.npx)

/-- FST and FSTP to single or double (R209, R210, R213, R214, R223). A number that neither overflows nor is tiny in the
format is stored rounded by RC to the format's precision, y here: PE says whether it differs, C1 whether its magnitude is
larger, no other flag changes, and FSTP pops. A zero, an infinity and a quiet NaN, its fraction cut, are stored without a
flag; a signaling NaN, stored quiet, and an unsupported pattern, stored as the indefinite, signal IE; unmasked, nothing is
stored or popped. -/
def Obligations.RealStoresRoundCorrectly : Prop :=
  ∀ (i : Instr) (s : State) (f : RealFormat) (pops : Nat), realStore i = some (f, pops) → operable s i = true →
    s.mem.wf = true → s.npx.empty 0 = false →
    (let x := s.npx.st 0
     let neg := signOf x
     (∀ y : ℚ, finite x = true → (2 : ℚ) ^ (1 - f.bias : ℤ) ≤ |val x| →
      IsRounding s.npx.cw.rc (val x) (ulpExponent (f.fw + 1) (val x)) y → |y| < (2 : ℚ) ^ (f.bias + 1 : ℤ) →
      ∃ t, exec i s = .next t ∧ formatVal f (storedBytes s t i) = y ∧
        (storedBytes s t i).testBit (f.ew + f.fw) = neg ∧ expField f (storedBytes s t i) ≠ f.ones ∧
        Raised s.npx t.npx { pe := decide (y ≠ val x) } ∧ t.npx.sw.c1 = decide (|val x| < |y|) ∧
        Popped pops s.npx t.npx) ∧
     (classOf x = .zero ∨ classOf x = .infinity ∨ classOf x = .qnan →
      ∃ t, exec i s = .next t ∧
        storedBytes s t i = (if classOf x = .zero then (if neg then 2 ^ (f.ew + f.fw) else 0)
          else specialBits f neg (if classOf x = .infinity then 0 else (x.extractLsb' (63 - f.fw) f.fw).toNat)) ∧
        Raised s.npx t.npx {} ∧ t.npx.sw.c1 = false ∧ Popped pops s.npx t.npx) ∧
     (classOf x = .snan ∨ classOf x = .unsupported →
      ∃ t, exec i s = .next t ∧ Raised s.npx t.npx { ie := true } ∧
        (s.npx.cw.im = true → t.npx.sw.c1 = false ∧ Popped pops s.npx t.npx ∧
          storedBytes s t i = (if classOf x = .snan
            then specialBits f neg ((quiet x).extractLsb' (63 - f.fw) f.fw).toNat
            else specialBits f true (2 ^ (f.fw - 1)))) ∧
        (s.npx.cw.im = false → t.mem = s.mem ∧ Popped 0 s.npx t.npx)))

/-- FST and FSTP to single or double of a number too large or too small for the format (R164, R165, R174). Overflow, when
the number rounded to the format's precision reaches 2^(bias + 1): OE; masked, infinity or the largest finite number is
stored, by RC and the sign, with PE, and C1 says which. Underflow, when the rounded number stays below the smallest normal
one (a smaller number that is rounded up to it is the parameter TININESS's, log 16): masked, it is rounded to a multiple of
the smallest denormal instead, and UE and PE are set when that is inexact; unmasked, UE. Unmasked, either stores nothing,
pops nothing and sets ES. -/
def Obligations.RealStoreOverflowAndUnderflow : Prop :=
  ∀ (i : Instr) (s : State) (f : RealFormat) (pops : Nat) (y : ℚ), realStore i = some (f, pops) →
    operable s i = true → s.mem.wf = true → s.npx.empty 0 = false → finite (s.npx.st 0) = true →
    (let v := val (s.npx.st 0)
     let neg := signOf (s.npx.st 0)
     let inf := s.npx.cw.rc = 0 ∨ (s.npx.cw.rc = 1 ∧ neg = true) ∨ (s.npx.cw.rc = 2 ∧ neg = false)
     v ≠ 0 → IsRounding s.npx.cw.rc v (ulpExponent (f.fw + 1) v) y →
     ((2 : ℚ) ^ (f.bias + 1 : ℤ) ≤ |y| →
      ∃ t, exec i s = .next t ∧
        (s.npx.cw.om = true → Raised s.npx t.npx { oe := true, pe := true } ∧ Popped pops s.npx t.npx ∧
          (inf → storedBytes s t i = specialBits f neg 0 ∧ t.npx.sw.c1 = true) ∧
          (¬inf → storedBytes s t i = specialBits f neg 0 - 1 ∧ t.npx.sw.c1 = false)) ∧
        (s.npx.cw.om = false → Raised s.npx t.npx { oe := true } ∧ t.mem = s.mem ∧ Popped 0 s.npx t.npx ∧
          t.npx.sw.es = true ∧ t.npx.sw.b = true)) ∧
     (s.npx.cw.um = true → |y| < (2 : ℚ) ^ (1 - f.bias : ℤ) →
      ∃ t, exec i s = .next t ∧ (storedBytes s t i).testBit (f.ew + f.fw) = neg ∧
        IsRounding s.npx.cw.rc v (1 - f.bias - f.fw) (formatVal f (storedBytes s t i)) ∧
        (let lost := decide (formatVal f (storedBytes s t i) ≠ v)
         Raised s.npx t.npx { ue := lost, pe := lost }) ∧
        t.npx.sw.c1 = decide (|v| < |formatVal f (storedBytes s t i)|) ∧ Popped pops s.npx t.npx) ∧
     (s.npx.cw.um = false → |y| < (2 : ℚ) ^ (1 - f.bias : ℤ) →
      ∃ t, exec i s = .next t ∧ Raised s.npx t.npx { ue := true } ∧ t.mem = s.mem ∧ Popped 0 s.npx t.npx ∧
        t.npx.sw.es = true ∧ t.npx.sw.b = true))

/-- FIST and FISTP store ST(0) rounded to an integer by RC, in two's complement; FBSTP as a sign and eighteen digits. PE
says whether it differs, C1 whether its magnitude is larger, and the pop follows. Out of range, for a NaN, an infinity or
an unsupported pattern: IE, and masked, the integer or the decimal indefinite; unmasked, nothing is stored or popped (R216
to R221, R224, R225, R160). -/
def Obligations.IntegerAndDecimalStoresRoundCorrectly : Prop :=
  ∀ (i : Instr) (s : State) (indef pops : Nat) (fits : ℤ → Prop) (bits : ℤ → Nat), storeForm i = some (indef, pops) →
    ((∃ n, intStore i = some (n, pops) ∧ (∀ z, fits z ↔ -2 ^ (n - 1) ≤ z ∧ z < 2 ^ (n - 1)) ∧
        ∀ z, bits z = (BitVec.ofInt n z).toNat) ∨
      (∃ p m, i = .fbstp p m ∧ (∀ z, fits z ↔ |z| < 10 ^ 18) ∧
        ∀ z, bits z = (if signOf (s.npx.st 0) then 2 ^ 79 else 0) +
          ((List.range 18).map fun k => z.natAbs / 10 ^ k % 10 * 16 ^ k).sum)) →
    operable s i = true → s.mem.wf = true → s.npx.empty 0 = false →
    (∀ z : ℤ, finite (s.npx.st 0) = true → IsRounding s.npx.cw.rc (val (s.npx.st 0)) 0 (z : ℚ) → fits z →
      ∃ t, exec i s = .next t ∧ storedBytes s t i = bits z ∧
        Raised s.npx t.npx { pe := decide ((z : ℚ) ≠ val (s.npx.st 0)) } ∧
        t.npx.sw.c1 = decide (|val (s.npx.st 0)| < |(z : ℚ)|) ∧ Popped pops s.npx t.npx) ∧
    ((finite (s.npx.st 0) = false ∨ ∃ z : ℤ, IsRounding s.npx.cw.rc (val (s.npx.st 0)) 0 (z : ℚ) ∧ ¬fits z) →
      ∃ t, exec i s = .next t ∧ Raised s.npx t.npx { ie := true } ∧ t.npx.sw.c1 = false ∧
        (s.npx.cw.im = true → storedBytes s t i = indef ∧ Popped pops s.npx t.npx) ∧
        (s.npx.cw.im = false → t.mem = s.mem ∧ Popped 0 s.npx t.npx))

/-- FXCH exchanges the contents and the tags of ST(0) and ST(i), with no flag and C1 0. When one of them is empty, IE and SF
are set and C1 is 0; masked, an empty one becomes the real indefinite first, and unmasked nothing is changed (R222). -/
def Obligations.ExchangeSwapsRegisters : Prop :=
  ∀ (p : List PrefixByte) (j : Idx) (s : State), operable s (.fxch p j) = true →
    (s.npx.empty 0 = false → s.npx.empty j = false →
      ∃ t, exec (.fxch p j) s = .next t ∧ t.npx.st 0 = s.npx.st j ∧ t.npx.st j = s.npx.st 0 ∧
        t.npx.tag (s.npx.phys 0) = s.npx.tag (s.npx.phys j) ∧ t.npx.tag (s.npx.phys j) = s.npx.tag (s.npx.phys 0) ∧
        OnlyAt s.npx t.npx [s.npx.phys 0, s.npx.phys j] ∧ t.npx.sw.c1 = false ∧ SameFlags s.npx t.npx) ∧
    ((s.npx.empty 0 = true ∨ s.npx.empty j = true) →
      ∃ t, exec (.fxch p j) s = .next t ∧ Raised s.npx t.npx { ie := true } true ∧ t.npx.sw.c1 = false ∧
        (s.npx.cw.im = true →
          t.npx.st 0 = (if s.npx.empty j then 0xFFFFC000000000000000 else s.npx.st j) ∧
          t.npx.st j = (if s.npx.empty 0 then 0xFFFFC000000000000000 else s.npx.st 0) ∧
          t.npx.tag (s.npx.phys 0) = (if s.npx.empty j then .special else s.npx.tag (s.npx.phys j)) ∧
          t.npx.tag (s.npx.phys j) = (if s.npx.empty 0 then .special else s.npx.tag (s.npx.phys 0)) ∧
          OnlyAt s.npx t.npx [s.npx.phys 0, s.npx.phys j]) ∧
        (s.npx.cw.im = false → OnlyAt s.npx t.npx []))

/-! Comparison (spec/42_comparison.md). -/

/-- Every comparison of ST(0), with a register, with +0.0 (FTST) or with a real or an integer in memory, of numbers and
infinities: C3, C2, C0 say greater (000), less (001) or equal (100), infinities beyond every number and zeros of either
sign equal; C1 is 0, DE alone is signalled, for a denormal, and the pops follow. An unmasked denormal ends it without a
pop (R230 to R245). -/
def Obligations.ComparisonsOrder : Prop :=
  ∀ (i : Instr) (s : State) (q : Source) (pops : Nat), compareForm i = some (q, pops) → operable s i = true →
    (let x := datum s i (.reg 0)
     let y := datum s i q
     let den := x.cls == .denormal || y.cls == .denormal
     (x.orderable s.npx.cw.dm = true → y.orderable s.npx.cw.dm = true →
      ∃ t, exec i s = .next t ∧ OrderCode t.npx.sw x.affine y.affine ∧ t.npx.sw.c1 = false ∧
        Raised s.npx t.npx { de := den } ∧ Popped pops s.npx t.npx) ∧
     (x.orderable true = true → y.orderable true = true → den = true → s.npx.cw.dm = false →
      ∃ t, exec i s = .next t ∧ t.npx.sw.c1 = false ∧ Raised s.npx t.npx { de := true } ∧ Popped 0 s.npx t.npx))

/-- A NaN or an unsupported operand compares unordered, C3 C2 C0 = 111 (R230), with a register, FTST's zero or memory:
FUCOM, FUCOMP and FUCOMPP take a quiet NaN without an exception and pop; every other case signals IE, gives 111 and pops
when it is masked, and otherwise pops nothing. C1 is 0 and no other flag changes. -/
def Obligations.UnorderedComparisons : Prop :=
  ∀ (i : Instr) (s : State) (q : Source) (pops : Nat), compareForm i = some (q, pops) → operable s i = true →
    (let x := datum s i (.reg 0)
     let y := datum s i q
     let bad := x.cls == .snan || y.cls == .snan || x.cls == .unsupported || y.cls == .unsupported
     x.empty = false → y.empty = false → (bad = true ∨ x.cls = .qnan ∨ y.cls = .qnan) →
     ∃ t, exec i s = .next t ∧ t.npx.sw.c1 = false ∧ Raised s.npx t.npx { ie := ordered i || bad } ∧
      ((ordered i = false ∧ bad = false) ∨ s.npx.cw.im = true →
        t.npx.sw.c3 = true ∧ t.npx.sw.c2 = true ∧ t.npx.sw.c0 = true ∧ Popped pops s.npx t.npx) ∧
      ((ordered i = true ∨ bad = true) → s.npx.cw.im = false → Popped 0 s.npx t.npx))

/-- FXAM (R246): C1 is the sign bit, empty or not; C3, C2, C0 are 101 for an empty register, else the code of the class;
nothing else of the stack or the flags changes. -/
def Obligations.ExamineReportsTheClass : Prop :=
  ∀ (p : List PrefixByte) (s : State), operable s (.fxam p) = true →
    ∃ t, exec (.fxam p) s = .next t ∧ t.npx.sw.c1 = (s.npx.st 0).getLsbD 79 ∧
      (t.npx.sw.c3, t.npx.sw.c2, t.npx.sw.c0) =
        (if s.npx.tag s.npx.sw.top = .empty then (true, false, true)
         else match classOf (s.npx.st 0) with
          | .unsupported => (false, false, false)
          | .snan | .qnan => (false, false, true)
          | .normal => (false, true, false)
          | .infinity => (false, true, true)
          | .zero => (true, false, false)
          | .denormal => (true, true, false)) ∧
      Popped 0 s.npx t.npx ∧ SameFlags s.npx t.npx

/-! Arithmetic (spec/44_arithmetic.md). -/

/-- FADD, FSUB, FSUBR, FMUL, FDIV and FDIVR, in every register form, with and without pop, and every form with a real or an
integer in memory, for operands that are numbers and an exact result v that is not tiny and whose rounding y to the
precision of PC by RC does not overflow: the destination receives y, its tag with it, and the pop follows (R161, R162, R261
to R283). DE says whether an operand is a denormal, PE whether y differs from v, C1 whether its magnitude is larger; no
other flag changes. -/
def Obligations.ArithmeticRoundsCorrectly : Prop :=
  ∀ (i : Instr) (s : State) (a : ArithForm) (y : ℚ), arithForm i = some a → operable s i = true → a.numbers s i →
    (let v := a.exact s i
     (2 : ℚ) ^ (-16382 : ℤ) ≤ |v| →
     IsRounding s.npx.cw.rc v (ulpExponent (precisionBits s.npx.cw.pc) v) y → |y| < (2 : ℚ) ^ (16384 : ℤ) →
     ∃ t r, exec i s = .next t ∧ Delivered s.npx t.npx a.dest a.pops r ∧ finite r = true ∧ val r = y ∧
      Raised s.npx t.npx { de := a.denormal s i, pe := decide (y ≠ v) } ∧ t.npx.sw.c1 = decide (|v| < |y|))

/-- Arithmetic, in every form, with an exact-zero result or an infinite operand (R145, R263): the zero has the common sign
of a sum's operands, else plus, or minus when RC rounds down, and the exclusive-or of the signs in a product or quotient;
an infinity stays one, with that sign, and a number over an infinity is a zero. C1 is 0, DE says whether an operand is a
denormal, and no other flag changes. -/
def Obligations.ZeroAndInfiniteResults : Prop :=
  (∀ (i : Instr) (s : State) (a : ArithForm), arithForm i = some a → operable s i = true → a.numbers s i →
    a.exact s i = 0 →
    ∃ t, exec i s = .next t ∧
      Delivered s.npx t.npx a.dest a.pops
        (zeroBits (zeroSign a.op s.npx.cw.rc (datum s i a.left).negative (datum s i a.right).negative)) ∧
      Raised s.npx t.npx { de := a.denormal s i } ∧ t.npx.sw.c1 = false) ∧
  ∀ (i : Instr) (s : State) (a : ArithForm), arithForm i = some a → operable s i = true →
    (datum s i a.left).orderable s.npx.cw.dm = true → (datum s i a.right).orderable s.npx.cw.dm = true →
    ((datum s i a.left).cls = .infinity ∨ (datum s i a.right).cls = .infinity) →
    ¬Indeterminate a.op (datum s i a.left) (datum s i a.right) →
    ∃ t, exec i s = .next t ∧
      Delivered s.npx t.npx a.dest a.pops (infiniteResult a.op (datum s i a.left) (datum s i a.right)) ∧
      Raised s.npx t.npx { de := a.denormal s i } ∧ t.npx.sw.c1 = false

/-- NaN and unsupported operands of arithmetic in every form, FSCALE, FPREM, FPREM1, FPATAN, FYL2X, FYL2XP1, FSQRT, FRNDINT,
F2XM1, FSIN and FCOS (R146, R157 to R159): a quiet NaN signals nothing and a signaling one IE alone, and the result is the
quiet form of one of the NaN operands; which of two is NAN_RULE's (log 17). An unsupported operand signals IE alone and
gives the real indefinite. C1 is 0 with a result; unmasked, no register, tag or TOP changes. That C1 is 0 when FPREM or FPREM1
delivers the indefinite of an unsupported operand is the model's choice (log 31): R286 and R287 do not state it, R158 gives
it for NaNs only, and R31 does not read the cell "quotient bit Q0, or O/U". -/
def Obligations.NanOperandsGiveQuietNans : Prop :=
  ∀ (i : Instr) (s : State) (f : ResultForm), computes i = some f → operable s i = true → f.hasEmpty s i = false →
    (f.hasClass s i .unsupported = false → (f.hasClass s i .qnan = true ∨ f.hasClass s i .snan = true) →
      ∃ t, exec i s = .next t ∧ Raised s.npx t.npx { ie := f.hasClass s i .snan } ∧
        ((f.hasClass s i .snan = false ∨ s.npx.cw.im = true) → t.npx.sw.c1 = false ∧
          ∃ q ∈ f.sources, (datum s i q).isNaN = true ∧
            Delivered s.npx t.npx f.dest f.pops (quiet (datum s i q).nan)) ∧
        (f.hasClass s i .snan = true → s.npx.cw.im = false → OnlyAt s.npx t.npx [])) ∧
    (f.hasClass s i .unsupported = true →
      ∃ t, exec i s = .next t ∧ Raised s.npx t.npx { ie := true } ∧
        (s.npx.cw.im = true → t.npx.sw.c1 = false ∧
          Delivered s.npx t.npx f.dest f.pops 0xFFFFC000000000000000) ∧
        (s.npx.cw.im = false → OnlyAt s.npx t.npx []))

/-- Division of a nonzero number by zero (R169, R263), in every form: ZE; masked, infinity with the exclusive-or of the
signs, and C1 is 0. The indeterminate forms (R263): IE, and C1 is 0; masked, the real indefinite. Unmasked, either changes
no register, tag or TOP. DE accompanies ZE for a denormal; no other flag changes. -/
def Obligations.DivisionByZeroAndIndeterminateForms : Prop :=
  (∀ (i : Instr) (s : State) (a : ArithForm), arithForm i = some a → a.op = .div → operable s i = true →
    (datum s i a.left).number s.npx.cw.dm = true → (datum s i a.left).value ≠ 0 →
    (datum s i a.right).number s.npx.cw.dm = true → (datum s i a.right).cls = .zero →
    ∃ t, exec i s = .next t ∧ Raised s.npx t.npx { de := a.denormal s i, ze := true } ∧
      (s.npx.cw.zm = true → t.npx.sw.c1 = false ∧
        Delivered s.npx t.npx a.dest a.pops
          (infinityBits ((datum s i a.left).negative != (datum s i a.right).negative))) ∧
      (s.npx.cw.zm = false → OnlyAt s.npx t.npx [])) ∧
  ∀ (i : Instr) (s : State) (a : ArithForm), arithForm i = some a → operable s i = true →
    (datum s i a.left).empty = false → (datum s i a.right).empty = false →
    Indeterminate a.op (datum s i a.left) (datum s i a.right) →
    ∃ t, exec i s = .next t ∧ Raised s.npx t.npx { ie := true } ∧ t.npx.sw.c1 = false ∧
      (s.npx.cw.im = true → Delivered s.npx t.npx a.dest a.pops 0xFFFFC000000000000000) ∧
      (s.npx.cw.im = false → OnlyAt s.npx t.npx [])

/-- The table of R163: a masked overflow of arithmetic, in every form, when the exact result rounded to the precision of PC
reaches 2^16384, delivers infinity or the largest finite number of the precision, by RC and the sign, with OE and PE (and
DE for a denormal operand), and C1 says which. -/
def Obligations.MaskedOverflowTable : Prop :=
  ∀ (i : Instr) (s : State) (a : ArithForm) (y : ℚ), arithForm i = some a → operable s i = true → a.numbers s i →
    s.npx.cw.om = true →
    (let v := a.exact s i
     let neg := decide (v < 0)
     let inf := s.npx.cw.rc = 0 ∨ (s.npx.cw.rc = 1 ∧ neg = true) ∨ (s.npx.cw.rc = 2 ∧ neg = false)
     v ≠ 0 → IsRounding s.npx.cw.rc v (ulpExponent (precisionBits s.npx.cw.pc) v) y → (2 : ℚ) ^ (16384 : ℤ) ≤ |y| →
     ∃ t, exec i s = .next t ∧
      (inf → Delivered s.npx t.npx a.dest a.pops (infinityBits neg) ∧ t.npx.sw.c1 = true) ∧
      (¬inf → t.npx.sw.c1 = false ∧
        Delivered s.npx t.npx a.dest a.pops (BitVec.ofBool neg ++ (0x7FFE : BitVec 15) ++
          (if s.npx.cw.pc = 0 then 0xFFFFFF0000000000 else if s.npx.cw.pc = 2 then 0xFFFFFFFFFFFFF800
           else 0xFFFFFFFFFFFFFFFF : BitVec 64))) ∧
      Raised s.npx t.npx { de := a.denormal s i, oe := true, pe := true })

/-- R165 with underflow masked, in every form of arithmetic: a nonzero result v that, rounded to the precision of PC, stays
below the smallest normal number 2^-16382 is rounded to a multiple of the smallest unit of the precision instead and keeps
its sign, also as a zero, and UE and PE are set exactly when that loses accuracy. (A smaller v that is rounded up to 2^-16382
is the parameter TININESS's, log 16.) -/
def Obligations.MaskedUnderflowDenormalizes : Prop :=
  ∀ (i : Instr) (s : State) (a : ArithForm) (y : ℚ), arithForm i = some a → operable s i = true → a.numbers s i →
    s.npx.cw.um = true →
    (let v := a.exact s i
     v ≠ 0 → IsRounding s.npx.cw.rc v (ulpExponent (precisionBits s.npx.cw.pc) v) y → |y| < (2 : ℚ) ^ (-16382 : ℤ) →
     ∃ t r, exec i s = .next t ∧ Delivered s.npx t.npx a.dest a.pops r ∧ finite r = true ∧ signOf r = decide (v < 0) ∧
      IsRounding s.npx.cw.rc v (-16381 - precisionBits s.npx.cw.pc) (val r) ∧
      Raised s.npx t.npx { de := a.denormal s i, ue := decide (val r ≠ v), pe := decide (val r ≠ v) } ∧
      t.npx.sw.c1 = decide (|v| < |val r|))

/-- Unmasked overflow and underflow of arithmetic, in every form (R163, R165, R174): the exact result v, rounded to the
precision of PC by RC, is y; when |y| reaches 2^16384 the destination receives y divided by 2^24576 and OE is set, and when
|y| is below 2^-16382 it receives y times 2^24576 and UE is set. PE says whether y differs from v and C1 whether its
magnitude is larger; the pops follow, and ES and B are set. -/
def Obligations.UnmaskedOverflowAndUnderflow : Prop :=
  ∀ (i : Instr) (s : State) (a : ArithForm) (y : ℚ), arithForm i = some a → operable s i = true → a.numbers s i →
    (let v := a.exact s i
     v ≠ 0 → IsRounding s.npx.cw.rc v (ulpExponent (precisionBits s.npx.cw.pc) v) y →
     (s.npx.cw.om = false → (2 : ℚ) ^ (16384 : ℤ) ≤ |y| →
      ∃ t r, exec i s = .next t ∧ Delivered s.npx t.npx a.dest a.pops r ∧ finite r = true ∧
        val r * (2 : ℚ) ^ (24576 : ℤ) = y ∧
        Raised s.npx t.npx { de := a.denormal s i, oe := true, pe := decide (y ≠ v) } ∧
        t.npx.sw.c1 = decide (|v| < |y|) ∧ t.npx.sw.es = true ∧ t.npx.sw.b = true) ∧
     (s.npx.cw.um = false → |y| < (2 : ℚ) ^ (-16382 : ℤ) →
      ∃ t r, exec i s = .next t ∧ Delivered s.npx t.npx a.dest a.pops r ∧ finite r = true ∧
        val r = y * (2 : ℚ) ^ (24576 : ℤ) ∧
        Raised s.npx t.npx { de := a.denormal s i, ue := true, pe := decide (y ≠ v) } ∧
        t.npx.sw.c1 = decide (|v| < |y|) ∧ t.npx.sw.es = true ∧ t.npx.sw.b = true))

/-- FSQRT of a positive number is the real square root rounded to the precision of PC by RC, a normal number, its tag with it:
PE says whether it differs from the root, C1 whether it is larger, DE whether the operand is a denormal, and no other flag
changes (R178, R284). A zero keeps itself without a flag; a negative number is invalid. An unmasked denormal that is not
negative signals DE alone and changes no register. -/
def Obligations.SquareRootRoundsCorrectly : Prop :=
  ∀ (p : List PrefixByte) (s : State), operable s (.fsqrt p) = true → s.npx.empty 0 = false →
    finite (s.npx.st 0) = true →
    (let x := s.npx.st 0
     let den := classOf x == .denormal
     ∃ t, exec (.fsqrt p) s = .next t ∧
      (0 < val x → usable s.npx.cw.dm x = true →
        ∃ r, Delivered s.npx t.npx 0 0 r ∧ classOf r = .normal ∧
          IsRounding s.npx.cw.rc (Real.sqrt (val x : ℝ))
            (Int.log 2 (Real.sqrt (val x : ℝ)) - precisionBits s.npx.cw.pc + 1) ((val r : ℚ) : ℝ) ∧
          Raised s.npx t.npx { de := den, pe := decide (val r ^ 2 ≠ val x) } ∧
          t.npx.sw.c1 = decide (val x < val r ^ 2)) ∧
      (0 < val x → usable s.npx.cw.dm x = false → Raised s.npx t.npx { de := true } ∧ OnlyAt s.npx t.npx []) ∧
      (val x = 0 → Delivered s.npx t.npx 0 0 x ∧ SameFlags s.npx t.npx ∧ t.npx.sw.c1 = false) ∧
      (val x < 0 → Raised s.npx t.npx { ie := true } ∧
        (s.npx.cw.im = true → Delivered s.npx t.npx 0 0 0xFFFFC000000000000000 ∧ t.npx.sw.c1 = false) ∧
        (s.npx.cw.im = false → OnlyAt s.npx t.npx [])))

/-- FABS (D9 E1) clears and FCHS (D9 E0) inverts bit 79 of ST(0), whatever the pattern; the other 79 bits, the tag and the
flags stay, and C1 is 0 (R290, R291). An empty ST(0) is a stack underflow, C1 0, and becomes the real indefinite when IE is
masked. -/
def Obligations.SignOperations : Prop :=
  ∀ (p : List PrefixByte) (s : State) (i : Instr) (b : Bool) (b1 : Byte),
    ((i = .fabs p ∧ b = false ∧ b1 = 0xE1) ∨ (i = .fchs p ∧ b = !(s.npx.st 0).getLsbD 79 ∧ b1 = 0xE0)) →
    operable s i = true → encode i = p.map encodePrefix ++ [0xD9, b1] ∧
    ∃ t, exec i s = .next t ∧ OnlyAt s.npx t.npx [s.npx.sw.top] ∧ t.npx.sw.c1 = false ∧
      (s.npx.empty 0 = false →
        t.npx.st 0 = (BitVec.ofBool b ++ (s.npx.st 0).extractLsb' 0 79) ∧
          t.npx.tag s.npx.sw.top = s.npx.tag s.npx.sw.top ∧ SameFlags s.npx t.npx) ∧
      (s.npx.empty 0 = true → t.npx.sw.ie = true ∧ t.npx.sw.sf = true ∧
        (s.npx.cw.im = true → t.npx.st 0 = 0xFFFFC000000000000000 ∧ t.npx.tag s.npx.sw.top = .special) ∧
        (s.npx.cw.im = false → OnlyAt s.npx t.npx []))

/-- FRNDINT rounds ST(0) to an integer by RC and keeps its sign, also as a zero: PE says whether it differs, C1 whether its
magnitude is larger, DE whether the operand is a denormal, and no other flag changes (R288). An unmasked denormal signals
DE alone and changes no register. -/
def Obligations.RoundToInteger : Prop :=
  ∀ (p : List PrefixByte) (s : State), operable s (.frndint p) = true → s.npx.empty 0 = false →
    finite (s.npx.st 0) = true →
    (let x := s.npx.st 0
     ∃ t, exec (.frndint p) s = .next t ∧
      (usable s.npx.cw.dm x = true →
        ∃ r, Delivered s.npx t.npx 0 0 r ∧ finite r = true ∧ IsRounding s.npx.cw.rc (val x) 0 (val r) ∧
          signOf r = signOf x ∧
          Raised s.npx t.npx { de := classOf x == .denormal, pe := decide (val r ≠ val x) } ∧
          t.npx.sw.c1 = decide (|val x| < |val r|)) ∧
      (usable s.npx.cw.dm x = false → Raised s.npx t.npx { de := true } ∧ OnlyAt s.npx t.npx []))

/-- FSCALE multiplies ST(0) by 2 to the power of ST(1) truncated, exactly where the product is in range, whatever PC and
RC; DE alone is signalled, for a denormal, C1 is 0, and ST(1) is unchanged (R285). -/
def Obligations.ScaleIsExact : Prop :=
  ∀ (p : List PrefixByte) (s : State) (n : ℤ), operable s (.fscale p) = true →
    s.npx.empty 0 = false → s.npx.empty 1 = false →
    usable s.npx.cw.dm (s.npx.st 0) = true → usable s.npx.cw.dm (s.npx.st 1) = true →
    IsRounding 3 (val (s.npx.st 1)) 0 (n : ℚ) →
    (2 : ℚ) ^ (-16382 : ℤ) ≤ |val (s.npx.st 0) * (2 : ℚ) ^ n| → |val (s.npx.st 0) * (2 : ℚ) ^ n| < (2 : ℚ) ^ (16384 : ℤ) →
    ∃ t r, exec (.fscale p) s = .next t ∧ Delivered s.npx t.npx 0 0 r ∧ finite r = true ∧
      val r = val (s.npx.st 0) * (2 : ℚ) ^ n ∧
      Raised s.npx t.npx { de := classOf (s.npx.st 0) == .denormal || classOf (s.npx.st 1) == .denormal } ∧
      t.npx.sw.c1 = false

/-- FSCALE out of range, v being ST(0) times 2 to the power of ST(1) truncated (R163, R165, R285). Overflow: masked,
infinity or the largest finite number by RC and the sign, with OE and PE, and C1 says which; unmasked, OE and v divided by
2^24576, or infinity where even that is out of range. Underflow: masked, v rounded to a multiple of the smallest denormal,
and UE and PE when that is inexact; unmasked, UE and v times 2^24576, or zero where even that is below the smallest normal
number. Sign and ST(1) are kept; unmasked, C1 is 0 and ES is set. DE says whether an operand is a denormal. -/
def Obligations.ScaleOverflowAndUnderflow : Prop :=
  ∀ (p : List PrefixByte) (s : State) (n : ℤ), operable s (.fscale p) = true →
    s.npx.empty 0 = false → s.npx.empty 1 = false →
    usable s.npx.cw.dm (s.npx.st 0) = true → usable s.npx.cw.dm (s.npx.st 1) = true →
    IsRounding 3 (val (s.npx.st 1)) 0 (n : ℚ) →
    (let v := val (s.npx.st 0) * (2 : ℚ) ^ n
     let neg := signOf (s.npx.st 0)
     let den := classOf (s.npx.st 0) == .denormal || classOf (s.npx.st 1) == .denormal
     let inf := s.npx.cw.rc = 0 ∨ (s.npx.cw.rc = 1 ∧ neg = true) ∨ (s.npx.cw.rc = 2 ∧ neg = false)
     ((2 : ℚ) ^ (16384 : ℤ) ≤ |v| →
      ∃ t r, exec (.fscale p) s = .next t ∧ Delivered s.npx t.npx 0 0 r ∧
        (s.npx.cw.om = true → Raised s.npx t.npx { de := den, oe := true, pe := true } ∧
          (inf → r = infinityBits neg ∧ t.npx.sw.c1 = true) ∧
          (¬inf → r = BitVec.ofBool neg ++ (0x7FFEFFFFFFFFFFFFFFFF : BitVec 79) ∧ t.npx.sw.c1 = false)) ∧
        (s.npx.cw.om = false → Raised s.npx t.npx { de := den, oe := true } ∧ t.npx.sw.c1 = false ∧
          t.npx.sw.es = true ∧ t.npx.sw.b = true ∧
          (|v| < (2 : ℚ) ^ (16384 + 24576 : ℤ) → finite r = true ∧ val r * (2 : ℚ) ^ (24576 : ℤ) = v) ∧
          ((2 : ℚ) ^ (16384 + 24576 : ℤ) ≤ |v| → r = infinityBits neg))) ∧
     (v ≠ 0 → |v| < (2 : ℚ) ^ (-16382 : ℤ) →
      ∃ t r, exec (.fscale p) s = .next t ∧ Delivered s.npx t.npx 0 0 r ∧ finite r = true ∧ signOf r = neg ∧
        (s.npx.cw.um = true → IsRounding s.npx.cw.rc v (-16445) (val r) ∧
          Raised s.npx t.npx { de := den, ue := decide (val r ≠ v), pe := decide (val r ≠ v) } ∧
          t.npx.sw.c1 = decide (|v| < |val r|)) ∧
        (s.npx.cw.um = false → Raised s.npx t.npx { de := den, ue := true } ∧ t.npx.sw.c1 = false ∧
          t.npx.sw.es = true ∧ t.npx.sw.b = true ∧
          ((2 : ℚ) ^ (-16382 - 24576 : ℤ) ≤ |v| → val r = v * (2 : ℚ) ^ (24576 : ℤ)) ∧
          (|v| < (2 : ℚ) ^ (-16382 - 24576 : ℤ) → r = zeroBits neg))))

/-- A complete FPREM or FPREM1 (exponent difference below 64): the remainder is exact, its quotient q truncated (FPREM) or
rounded to nearest even (FPREM1), a zero has ST(0)'s sign, C2 is 0 and C0, C3, C1 are the quotient's bits 2, 1, 0 (R286,
R287, R32). A nonzero remainder below 2^-16382 with UE unmasked is delivered times 2^24576, with UE, and ES is set. DE says
whether an operand is a denormal; no other flag changes. -/
def Obligations.CompleteRemainderIsExact : Prop :=
  ∀ (p : List PrefixByte) (s : State) (i : Instr) (rc : BitVec 2) (q : ℤ),
    ((i = .fprem p ∧ rc = 3) ∨ (i = .fprem1 p ∧ rc = 0)) → operable s i = true →
    s.npx.empty 0 = false → s.npx.empty 1 = false →
    usable s.npx.cw.dm (s.npx.st 0) = true → usable s.npx.cw.dm (s.npx.st 1) = true →
    val (s.npx.st 0) ≠ 0 → val (s.npx.st 1) ≠ 0 →
    Int.log 2 |val (s.npx.st 0)| - Int.log 2 |val (s.npx.st 1)| < 64 →
    IsRounding rc (val (s.npx.st 0) / val (s.npx.st 1)) 0 (q : ℚ) →
    (let rem := val (s.npx.st 0) - q * val (s.npx.st 1)
     let under := !s.npx.cw.um && decide (rem ≠ 0 ∧ |rem| < (2 : ℚ) ^ (-16382 : ℤ))
     ∃ t r, exec i s = .next t ∧ Delivered s.npx t.npx 0 0 r ∧ finite r = true ∧
      val r = (if under then rem * (2 : ℚ) ^ (24576 : ℤ) else rem) ∧ (rem = 0 → signOf r = signOf (s.npx.st 0)) ∧
      t.npx.sw.c2 = false ∧ t.npx.sw.c0 = q.natAbs.testBit 2 ∧ t.npx.sw.c3 = q.natAbs.testBit 1 ∧
      t.npx.sw.c1 = q.natAbs.testBit 0 ∧ (under = true → t.npx.sw.es = true ∧ t.npx.sw.b = true) ∧
      Raised s.npx t.npx
        { de := classOf (s.npx.st 0) == .denormal || classOf (s.npx.st 1) == .denormal, ue := under })

/-- An incomplete FPREM or FPREM1 (exponent difference D of 64 or more): for some N from 32 to 63, the value of the parameter
PREM_STEP (log 19), ST(0) less ST(1) times 2^(D-N) times the truncated quotient, with ST(0)'s sign and at least 2^31 times
smaller; C2 is 1 and C3, C1, C0 are 0 (R286, R287). A nonzero one below 2^-16382 with UE unmasked is delivered times
2^24576, with UE, and ES is set. DE says whether an operand is a denormal; no other flag changes. -/
def Obligations.IncompleteRemainderReduces : Prop :=
  ∀ (p : List PrefixByte) (s : State) (i : Instr) (d : ℤ), (i = .fprem p ∨ i = .fprem1 p) → operable s i = true →
    s.npx.empty 0 = false → s.npx.empty 1 = false →
    usable s.npx.cw.dm (s.npx.st 0) = true → usable s.npx.cw.dm (s.npx.st 1) = true →
    val (s.npx.st 0) ≠ 0 → val (s.npx.st 1) ≠ 0 →
    d = Int.log 2 |val (s.npx.st 0)| - Int.log 2 |val (s.npx.st 1)| → 64 ≤ d →
    ∃ (n q : ℤ), 32 ≤ n ∧ n ≤ 63 ∧
      IsRounding 3 (val (s.npx.st 0) / (val (s.npx.st 1) * (2 : ℚ) ^ (d - n))) 0 (q : ℚ) ∧
      (let rem := val (s.npx.st 0) - q * (val (s.npx.st 1) * (2 : ℚ) ^ (d - n))
       let under := !s.npx.cw.um && decide (rem ≠ 0 ∧ |rem| < (2 : ℚ) ^ (-16382 : ℤ))
       |rem| * 2 ^ 31 < |val (s.npx.st 0)| ∧
       ∃ t r, exec i s = .next t ∧ Delivered s.npx t.npx 0 0 r ∧ finite r = true ∧
        val r = (if under then rem * (2 : ℚ) ^ (24576 : ℤ) else rem) ∧ signOf r = signOf (s.npx.st 0) ∧
        t.npx.sw.c3 = false ∧ t.npx.sw.c2 = true ∧ t.npx.sw.c1 = false ∧ t.npx.sw.c0 = false ∧
        (under = true → t.npx.sw.es = true ∧ t.npx.sw.b = true) ∧
        Raised s.npx t.npx
          { de := classOf (s.npx.st 0) == .denormal || classOf (s.npx.st 1) == .denormal, ue := under })

/-- FXTRACT replaces ST(0) by its exponent and pushes its significand, both exact and each with its tag; C1 is 0, DE alone is
signalled, for a denormal (R289). Of a zero, ZE alone, and masked minus infinity under the zero. An unmasked denormal
signals DE alone and changes no register. -/
def Obligations.ExtractSplitsTheNumber : Prop :=
  ∀ (p : List PrefixByte) (s : State), operable s (.fxtract p) = true → s.npx.empty 0 = false → s.npx.full = false →
    finite (s.npx.st 0) = true →
    (let x := s.npx.st 0
     ∃ t, exec (.fxtract p) s = .next t ∧
      (val x ≠ 0 → usable s.npx.cw.dm x = true →
        ∃ e m, DeliveredPair s.npx t.npx e m ∧ finite e = true ∧ classOf m = .normal ∧
          val e = Int.log 2 |val x| ∧ val m * (2 : ℚ) ^ (Int.log 2 |val x|) = val x ∧
          1 ≤ |val m| ∧ |val m| < 2 ∧
          Raised s.npx t.npx { de := classOf x == .denormal } ∧ t.npx.sw.c1 = false) ∧
      (val x ≠ 0 → usable s.npx.cw.dm x = false → Raised s.npx t.npx { de := true } ∧ OnlyAt s.npx t.npx []) ∧
      (val x = 0 → Raised s.npx t.npx { ze := true } ∧
        (s.npx.cw.zm = true → DeliveredPair s.npx t.npx 0xFFFF8000000000000000 x ∧ t.npx.sw.c1 = false) ∧
        (s.npx.cw.zm = false → OnlyAt s.npx t.npx [])))

/-! Transcendental instructions (spec/45_transcendental.md). The magnitudes are the parameter TRANSC (log 18): these hold
for every value of it. -/

/-- FSIN, FCOS, FPTAN and FSINCOS of a magnitude of 2^63 or more set C2 and change no register, tag, TOP or flag (R309);
below it they clear C2 and write the result: in ST(0), or in ST(0) and a new top, which FPTAN makes 1.0. Below 1 the sign
is the operand's for the sine and tangent and plus for the cosine (R300 to R305). FSINCOS leaves in ST(1) what FSIN and in
ST(0) what FCOS would leave in ST(0) from the same state (R305). -/
def Obligations.TrigonometricInstructions : Prop :=
  (∀ (p : List PrefixByte) (s : State) (i : Instr),
    (i = .fsin p ∨ i = .fcos p ∨ i = .fptan p ∨ i = .fsincos p) → operable s i = true → s.npx.empty 0 = false →
    ((i = .fptan p ∨ i = .fsincos p) → s.npx.full = false) → usable s.npx.cw.dm (s.npx.st 0) = true →
    ∃ t, exec i s = .next t ∧
      ((2 : ℚ) ^ (63 : ℤ) ≤ |val (s.npx.st 0)| →
        t.npx.sw.c2 = true ∧ OnlyAt s.npx t.npx [] ∧ SameFlags s.npx t.npx) ∧
      (|val (s.npx.st 0)| < (2 : ℚ) ^ (63 : ℤ) →
        t.npx.sw.c2 = false ∧
        ((i = .fsin p ∨ i = .fcos p) → OnlyAt s.npx t.npx [s.npx.sw.top] ∧
          t.npx.tag s.npx.sw.top = tagOf (t.npx.st 0)) ∧
        ((i = .fptan p ∨ i = .fsincos p) → t.npx.sw.top = s.npx.sw.top - 1 ∧
          t.npx.tag t.npx.sw.top = tagOf (t.npx.st 0) ∧ t.npx.tag s.npx.sw.top = tagOf (t.npx.st 1) ∧
          ∀ k, k ≠ s.npx.sw.top → k ≠ s.npx.sw.top - 1 → t.npx.reg k = s.npx.reg k ∧ t.npx.tag k = s.npx.tag k) ∧
        (i = .fptan p → t.npx.st 0 = 0x3FFF8000000000000000)) ∧
      (|val (s.npx.st 0)| < 1 →
        (i = .fsin p → signOf (t.npx.st 0) = signOf (s.npx.st 0)) ∧ (i = .fcos p → signOf (t.npx.st 0) = false) ∧
        ((i = .fptan p ∨ i = .fsincos p) → signOf (t.npx.st 1) = signOf (s.npx.st 0)) ∧
        (i = .fsincos p → signOf (t.npx.st 0) = false))) ∧
  ∀ (p q r : List PrefixByte) (s t u v : State), s.npx.empty 0 = false → s.npx.full = false →
    usable s.npx.cw.dm (s.npx.st 0) = true → |val (s.npx.st 0)| < (2 : ℚ) ^ (63 : ℤ) →
    operable s (.fsincos p) = true → exec (.fsincos p) s = .next t → exec (.fsin q) s = .next u →
    exec (.fcos r) s = .next v → t.npx.st 1 = u.npx.st 0 ∧ t.npx.st 0 = v.npx.st 0

/-- FPATAN, FYL2X of a positive ST(0) and FYL2XP1 of one in its range write ST(1), with its tag, and pop; F2XM1 within [-1, 1]
writes ST(0) alone (R303, R306 to R308). FYL2X of a power of two is the exact product correctly rounded; F2XM1 is exact at
zero and at plus and minus 1. -/
def Obligations.LogarithmsAndArctangent : Prop :=
  (∀ (p : List PrefixByte) (s : State) (i : Instr),
    (i = .fpatan p ∨ (i = .fyl2x p ∧ 0 < val (s.npx.st 0)) ∨ (i = .fyl2xp1 p ∧ InLogRange (s.npx.st 0))) →
    operable s i = true → s.npx.empty 0 = false → s.npx.empty 1 = false →
    usable s.npx.cw.dm (s.npx.st 0) = true → usable s.npx.cw.dm (s.npx.st 1) = true →
    ∃ t, exec i s = .next t ∧ t.npx.sw.top = s.npx.sw.top + 1 ∧ t.npx.tag s.npx.sw.top = .empty ∧
      t.npx.tag (s.npx.phys 1) = tagOf (t.npx.reg (s.npx.phys 1)) ∧
      (∀ k, k ≠ s.npx.phys 1 → t.npx.reg k = s.npx.reg k ∧ (k ≠ s.npx.sw.top → t.npx.tag k = s.npx.tag k)) ∧
      ∀ n : ℤ, i = .fyl2x p → val (s.npx.st 0) = (2 : ℚ) ^ n → InRange ((n : ℚ) * val (s.npx.st 1)) →
        IsRounding s.npx.cw.rc ((n : ℚ) * val (s.npx.st 1)) (Int.log 2 |(n : ℚ) * val (s.npx.st 1)| - 63)
          (val (t.npx.reg (s.npx.phys 1)))) ∧
  ∀ (p : List PrefixByte) (s : State), operable s (.f2xm1 p) = true → s.npx.empty 0 = false →
    usable s.npx.cw.dm (s.npx.st 0) = true → |val (s.npx.st 0)| ≤ 1 →
    ∃ t, exec (.f2xm1 p) s = .next t ∧ OnlyAt s.npx t.npx [s.npx.sw.top] ∧
      t.npx.tag s.npx.sw.top = tagOf (t.npx.st 0) ∧ (val (s.npx.st 0) = 0 → t.npx.st 0 = s.npx.st 0) ∧
      (val (s.npx.st 0) = 1 → val (t.npx.st 0) = 1) ∧ (val (s.npx.st 0) = -1 → val (t.npx.st 0) = -1 / 2)

/-- The rows for zeros, infinities, negative numbers and 1.0 (`specialRow`: FSQRT, FSCALE, FPREM, FPREM1, FRNDINT, FCOS,
FPATAN, FSIN, F2XM1, FYL2X, FYL2XP1), and for every operand of FXTRACT, FPTAN and FSINCOS that is no nonzero number
(`pairRow`): IE, ZE or neither, with DE for a denormal, the masked result, and nothing written when the exception is
unmasked (R284 to R289, R301 to R308). A row of FPREM and FPREM1 with a result is complete, with the quotient 0 (R286,
R287); the trigonometric instructions clear C2 (R309; where they end without a result by inference, log 32). C1 is 0;
but FPREM and FPREM1 keep it where they end without a result, and for the others an unmasked exception leaves it 0, both
DEDUCED from R31 and R173 (log 30). That C1 is 0 when FPREM or FPREM1 delivers the indefinite (ST(0) an infinity, or ST(1) a
zero, IE masked) is the model's choice (log 31): neither R286, R287 nor R31 states it. -/
def Obligations.SpecialOperandRows : Prop :=
  (∀ (i : Instr) (s : State) (f : ResultForm) (r : SpecialRow Ext), computes i = some f → operable s i = true →
    f.hasEmpty s i = false →
    f.hasClass s i .unsupported = false → f.hasClass s i .snan = false → f.hasClass s i .qnan = false →
    specialRow i (s.npx.st 0) (s.npx.st 1) = some r → (∀ p, i = .fyl2xp1 p → InLogRange (s.npx.st 0)) →
    (let den := f.hasClass s i .denormal
     ∃ t, exec i s = .next t ∧ Raised s.npx t.npx (r.signals s.npx.cw den) ∧
      (r.delivers s.npx.cw den = true → Delivered s.npx t.npx f.dest f.pops r.result ∧ t.npx.sw.c1 = false ∧
        (∀ v, r = .value v → reduces i = true →
          t.npx.sw.c3 = false ∧ t.npx.sw.c2 = false ∧ t.npx.sw.c0 = false)) ∧
      (r.delivers s.npx.cw den = false → OnlyAt s.npx t.npx [] ∧ t.npx.sw.c1 = (reduces i && s.npx.sw.c1)) ∧
      ∀ p, i = .fsin p ∨ i = .fcos p → t.npx.sw.c2 = false)) ∧
  ∀ (i : Instr) (s : State) (r : SpecialRow (Ext × Ext)), makesPair i = true → operable s i = true →
    s.npx.empty 0 = false → s.npx.full = false → pairRow i (s.npx.st 0) = some r →
    ∃ t, exec i s = .next t ∧ Raised s.npx t.npx (r.signals s.npx.cw false) ∧ t.npx.sw.c1 = false ∧
      (r.delivers s.npx.cw false = true → DeliveredPair s.npx t.npx r.result.1 r.result.2) ∧
      (r.delivers s.npx.cw false = false → OnlyAt s.npx t.npx []) ∧
      ∀ p, i = .fptan p ∨ i = .fsincos p → t.npx.sw.c2 = false

/-- The rows of the table of R303 that give multiples of pi: FPATAN leaves the angle, with the sign of ST(1), correctly rounded
to 64 bits by RC, in ST(1), its tag with it, and pops. PE is set, C1 says whether its magnitude is larger than the angle's, DE
whether an operand is a denormal, and no other flag changes. -/
def Obligations.ArctangentTableAngles : Prop :=
  ∀ (p : List PrefixByte) (s : State) (θ : ℝ), operable s (.fpatan p) = true →
    s.npx.empty 0 = false → s.npx.empty 1 = false →
    (let x := s.npx.st 0
     let y := s.npx.st 1
     (classOf y = .zero ∧ (usable s.npx.cw.dm x = true ∨ classOf x = .infinity) ∧ signOf x = true ∧ θ = Real.pi) ∨
     (classOf y = .infinity ∧ classOf x = .infinity ∧ signOf x = false ∧ θ = Real.pi / 4) ∨
     (classOf y = .infinity ∧ classOf x = .infinity ∧ signOf x = true ∧ θ = 3 * Real.pi / 4) ∨
     (classOf y = .infinity ∧ usable s.npx.cw.dm x = true ∧ θ = Real.pi / 2) ∨
     (usable s.npx.cw.dm y = true ∧ val y ≠ 0 ∧ classOf x = .zero ∧ θ = Real.pi / 2) ∨
     (usable s.npx.cw.dm y = true ∧ val y ≠ 0 ∧ classOf x = .infinity ∧ signOf x = true ∧ θ = Real.pi)) →
    ∃ t r, exec (.fpatan p) s = .next t ∧ Delivered s.npx t.npx 1 1 r ∧ classOf r = .normal ∧
      IsRounding s.npx.cw.rc (if signOf (s.npx.st 1) then -θ else θ) (Int.log 2 θ - 63) ((val r : ℚ) : ℝ) ∧
      Raised s.npx t.npx
        { de := classOf (s.npx.st 0) == .denormal || classOf (s.npx.st 1) == .denormal, pe := true } ∧
      (t.npx.sw.c1 = true ↔ θ < |((val r : ℚ) : ℝ)|)

/-! Processor control (spec/46_processor_control.md). -/

/-- FSTSW stores all 16 bits of SW, or puts them into AX leaving the upper half of EAX; FSTCW stores CW; FLDCW loads it,
and ES and B follow the new masks; FCLEX clears SW[7:0] and B and keeps TOP (R322 to R326). The reserved bits of CW are
free (R41, log 12). -/
def Obligations.StatusAndControlTransfers : Prop :=
  (∀ (p : List PrefixByte) (m : MemOperand) (s : State), operable s (.fstswM16 p m) = true → s.mem.wf = true →
    ∃ t, exec (.fstswM16 p m) s = .next t ∧ storedBytes s t (.fstswM16 p m) = s.npx.sw.toBits.toNat ∧
      Popped 0 s.npx t.npx ∧ SameFlags s.npx t.npx) ∧
  (∀ (p : List PrefixByte) (s : State), operable s (.fstswAx p) = true →
    ∃ t, exec (.fstswAx p) s = .next t ∧ t.cpu.eax = (s.cpu.eax.extractLsb' 16 16 ++ s.npx.sw.toBits : BitVec 32) ∧
      Popped 0 s.npx t.npx ∧ SameFlags s.npx t.npx) ∧
  (∀ (p : List PrefixByte) (m : MemOperand) (s : State), operable s (.fstcw p m) = true → s.mem.wf = true →
    ∃ t, exec (.fstcw p m) s = .next t ∧
      ControlWord.ofBits (BitVec.ofNat 16 (storedBytes s t (.fstcw p m))) = s.npx.cw ∧
      Popped 0 s.npx t.npx ∧ SameFlags s.npx t.npx) ∧
  (∀ (p : List PrefixByte) (m : MemOperand) (s : State), operable s (.fldcw p m) = true →
    ∃ t, exec (.fldcw p m) s = .next t ∧
      t.npx.cw = ControlWord.ofBits (BitVec.ofNat 16 (operandBytes s (.fldcw p m))) ∧
      t.npx.sw.es = unmaskedFlag t.npx.cw s.npx.sw ∧ t.npx.sw.b = t.npx.sw.es ∧
      Popped 0 s.npx t.npx ∧ SameFlags s.npx t.npx) ∧
  ∀ (p : List PrefixByte) (s : State), operable s (.fclex p) = true →
    ∃ t, exec (.fclex p) s = .next t ∧ t.npx.sw.toBits.extractLsb' 0 8 = 0 ∧ t.npx.sw.b = false ∧
      t.npx.cw = s.npx.cw ∧ Popped 0 s.npx t.npx

/-- FSTENV stores CW, SW and TW in its format's first three fields and the pointers in the rest, values before the
instruction, and then masks all six exceptions and clears ES and B (R48 to R53, R327). Reserved fields are free. -/
def Obligations.StoreEnvironmentImage : Prop :=
  ∀ (p : List PrefixByte) (m : MemOperand) (s : State), operable s (.fstenv p m) = true → s.mem.wf = true →
    ∃ t, exec (.fstenv p m) s = .next t ∧
      (let img := storedBytes s t (.fstenv p m)
       let wide := operandSize32 s.cpu.opSize32 p = true
       let bits (byte : Nat) : BitVec 16 := BitVec.ofNat 16 (img / 2 ^ (8 * byte))
       (wide → ControlWord.ofBits (bits 0) = s.npx.cw ∧ bits 4 = s.npx.sw.toBits ∧ bits 8 = tagWord s.npx.tags) ∧
       (¬wide → ControlWord.ofBits (bits 0) = s.npx.cw ∧ bits 2 = s.npx.sw.toBits ∧ bits 4 = tagWord s.npx.tags) ∧
       (wide → s.cpu.mode = .protectedMode →
         (bits 14 ++ bits 12 : BitVec 32) = s.npx.fip.off ∧ bits 16 = s.npx.fip.sel ∧
         bits 18 = (0 : BitVec 5) ++ s.npx.fop ∧ (bits 22 ++ bits 20 : BitVec 32) = s.npx.fdp.off ∧
         bits 24 = s.npx.fdp.sel) ∧
       (¬wide → s.cpu.mode = .protectedMode →
         bits 6 = s.npx.fip.off.extractLsb' 0 16 ∧ bits 8 = s.npx.fip.sel ∧
         bits 10 = s.npx.fdp.off.extractLsb' 0 16 ∧ bits 12 = s.npx.fdp.sel) ∧
       (wide → s.cpu.mode ≠ .protectedMode →
         bits 12 = s.npx.fip.lin.extractLsb' 0 16 ∧
         (bits 18 ++ bits 16 : BitVec 32) =
           (0 : BitVec 4) ++ s.npx.fip.lin.extractLsb' 16 16 ++ (0 : BitVec 1) ++ s.npx.fop ∧
         bits 20 = s.npx.fdp.lin.extractLsb' 0 16 ∧
         (bits 26 ++ bits 24 : BitVec 32) = (0 : BitVec 4) ++ s.npx.fdp.lin.extractLsb' 16 16 ++ (0 : BitVec 12)) ∧
       (¬wide → s.cpu.mode ≠ .protectedMode →
         bits 6 = s.npx.fip.lin.extractLsb' 0 16 ∧
         bits 8 = s.npx.fip.lin.extractLsb' 16 4 ++ (0 : BitVec 1) ++ s.npx.fop ∧
         bits 10 = s.npx.fdp.lin.extractLsb' 0 16 ∧
         bits 12 = s.npx.fdp.lin.extractLsb' 16 4 ++ (0 : BitVec 12))) ∧
      t.npx.cw = { s.npx.cw with im := true, dm := true, zm := true, om := true, um := true, pm := true } ∧
      t.npx.sw.es = false ∧ t.npx.sw.b = false ∧ Popped 0 s.npx t.npx ∧ SameFlags s.npx t.npx

/-- FLDENV loads CW, SW, the tags and the pointers from its format's fields, and FRSTOR, from an image of any contents, the
registers too: ST(j) from the ten bytes j after the environment, numbered by the TOP loaded (R328, R330, R331, R48 to R54).
ES and B are computed from the flags and masks loaded, not loaded; a tag of 11b makes its register empty and any other one
is recomputed from the register. The pointers are loaded as far as each of the four formats holds them. -/
def Obligations.LoadEnvironmentImage : Prop :=
  ∀ (p : List PrefixByte) (m : MemOperand) (s : State) (i : Instr), (i = .fldenv p m ∨ i = .frstor p m) →
    operable s i = true →
    ∃ t, exec i s = .next t ∧
      (let img := operandBytes s i
       let wide := operandSize32 s.cpu.opSize32 p
       let prot := decide (s.cpu.mode = .protectedMode)
       let bits (byte : Nat) : BitVec 16 := BitVec.ofNat 16 (img / 2 ^ (8 * byte))
       let upper (byte : Nat) : BitVec 16 := BitVec.ofNat 16 (img / 2 ^ (8 * byte + 12))
       let sw := StatusWord.ofBits (bits (if wide then 4 else 2))
       let tw := bits (if wide then 8 else 4)
       t.npx.cw = ControlWord.ofBits (bits 0) ∧
       t.npx.sw = { sw with es := unmaskedFlag t.npx.cw sw, b := unmaskedFlag t.npx.cw sw } ∧
       (i = .fldenv p m → t.npx.regs = s.npx.regs) ∧
       (i = .frstor p m → ∀ j : Idx, t.npx.reg (sw.top + j) =
         BitVec.ofNat 80 (img / 2 ^ (8 * ((if wide then 28 else 14) + 10 * j.toNat)))) ∧
       (∀ k : Idx, t.npx.tag k = if tw.extractLsb' (2 * k.toNat) 2 = 3 then .empty else tagOf (t.npx.reg k)) ∧
       (wide = true → prot = true →
         t.npx.fip.off = (bits 14 ++ bits 12 : BitVec 32) ∧ t.npx.fip.sel = bits 16 ∧
         t.npx.fop = (bits 18).extractLsb' 0 11 ∧ t.npx.fdp.off = (bits 22 ++ bits 20 : BitVec 32) ∧
         t.npx.fdp.sel = bits 24) ∧
       (wide = false → prot = true →
         t.npx.fip.off.extractLsb' 0 16 = bits 6 ∧ t.npx.fip.sel = bits 8 ∧
         t.npx.fdp.off.extractLsb' 0 16 = bits 10 ∧ t.npx.fdp.sel = bits 12) ∧
       (wide = true → prot = false →
         t.npx.fip.lin = (upper 16 ++ bits 12 : BitVec 32) ∧ t.npx.fop = (bits 16).extractLsb' 0 11 ∧
         t.npx.fdp.lin = (upper 24 ++ bits 20 : BitVec 32)) ∧
       (wide = false → prot = false →
         t.npx.fip.lin.extractLsb' 0 20 = ((bits 8).extractLsb' 12 4 ++ bits 6 : BitVec 20) ∧
         t.npx.fop = (bits 8).extractLsb' 0 11 ∧
         t.npx.fdp.lin.extractLsb' 0 20 = ((bits 12).extractLsb' 12 4 ++ bits 10 : BitVec 20)))

/-- FSAVE leaves the state of FNINIT, and FRSTOR of the image it stored, in the same format, restores what was saved
(R329, R330): the control word, the status word, every data register and every tag, and in 32-bit protected mode the
pointers. -/
def Obligations.SaveThenRestore : Prop :=
  ∀ (p : List PrefixByte) (m : MemOperand) (s : State), operable s (.fsave p m) = true → s.mem.wf = true →
    s.npx.esLaw → s.npx.tagLaw →
    ∃ t, exec (.fsave p m) s = .next t ∧ t.npx.cw = ControlWord.ofBits 0x037F ∧ t.npx.sw.toBits = 0 ∧
      (∀ k, t.npx.tag k = .empty) ∧ t.npx.regs = s.npx.regs ∧ t.npx.fip = Pointer.zero ∧ t.npx.fdp = Pointer.zero ∧
      t.npx.fop = 0 ∧
      (accessOk t (.frstor p m) = true →
        ∃ u, exec (.frstor p m) t = .next u ∧ u.npx.cw = s.npx.cw ∧ u.npx.sw = s.npx.sw ∧ u.npx.regs = s.npx.regs ∧
          u.npx.tags = s.npx.tags ∧
          (s.cpu.mode = .protectedMode → operandSize32 s.cpu.opSize32 p = true →
            u.npx.fip.sel = s.npx.fip.sel ∧ u.npx.fip.off = s.npx.fip.off ∧ u.npx.fdp.sel = s.npx.fdp.sel ∧
              u.npx.fdp.off = s.npx.fdp.off ∧ u.npx.fop = s.npx.fop))

/-- FINCSTP (D9 F7) adds one to TOP and FDECSTP (D9 F6) takes one away, modulo 8; C1 is 0; no tag, register or flag
changes; FIP and FOP are updated (R332, R333). -/
def Obligations.StackPointerMoves : Prop :=
  ∀ (p : List PrefixByte) (s : State) (i : Instr) (d : Idx),
    ((i = .fincstp p ∧ d = 1) ∨ (i = .fdecstp p ∧ d = -1)) → operable s i = true →
    encode i = p.map encodePrefix ++ [0xD9, if i = .fincstp p then 0xF7 else 0xF6] ∧
    ∃ t, exec i s = .next t ∧ t.npx.sw.top = s.npx.sw.top + d ∧ t.npx.sw.c1 = false ∧ t.npx.regs = s.npx.regs ∧
      t.npx.tags = s.npx.tags ∧ SameFlags s.npx t.npx ∧ t.npx.fip.sel = s.cpu.cs.sel ∧ t.npx.fip.off = s.cpu.eip ∧
      t.npx.fop = (if i = .fincstp p then 0x1F7 else 0x1F6)

/-- FFREE empties the tag of ST(i) alone (R334); FNOP changes no register, tag, TOP or flag (R335); FENI, FDISI and FSETPM
change no NPX state at all (R337 with LEGACY_NOP = nop, log 20). WAIT (R336): interrupt 7 by TS, then interrupt 16 by ES,
each at its first byte; else only the program counter moves, past its one byte and its prefix bytes. EM alone does nothing.
The draw counter is the model's own (log 11). -/
def Obligations.FreeAndNoOperations : Prop :=
  (∀ (p : List PrefixByte) (j : Idx) (s : State), operable s (.ffree p j) = true →
    ∃ t, exec (.ffree p j) s = .next t ∧ t.npx.regs = s.npx.regs ∧ t.npx.sw.top = s.npx.sw.top ∧
      (∀ k, t.npx.tag k = if k = s.npx.sw.top + j then .empty else s.npx.tag k) ∧ SameFlags s.npx t.npx) ∧
  (∀ (p : List PrefixByte) (s : State), operable s (.fnop p) = true →
    ∃ t, exec (.fnop p) s = .next t ∧ Popped 0 s.npx t.npx ∧ SameFlags s.npx t.npx) ∧
  (∀ (p : List PrefixByte) (s : State) (i : Instr), (i = .feni p ∨ i = .fdisi p ∨ i = .fsetpm p) →
    operable s i = true →
    ∃ t, exec i s = .next t ∧ t.npx = s.npx ∧ t.mem = s.mem ∧ t.cpu.eip = s.cpu.eip + BitVec.ofNat 32 (p.length + 2)) ∧
  ∀ (s : State) (p : List PrefixByte),
    (s.cpu.ts = true → exec (.wait p) s = .next { s with cpu := { s.cpu with
      interrupt := some { vector := .v7, sel := s.cpu.cs.sel, off := s.cpu.eip } } }) ∧
    (s.cpu.ts = false → s.npx.sw.es = true → exec (.wait p) s = .next { s with cpu := { s.cpu with
      interrupt := some { vector := .v16, sel := s.cpu.cs.sel, off := s.cpu.eip } } }) ∧
    (s.cpu.ts = false → s.npx.sw.es = false → exec (.wait p) s =
      .next { s with cpu := { s.cpu with eip := s.cpu.eip + BitVec.ofNat 32 (p.length + 1) }, draws := s.draws + 1 })

/-! The bus (spec/47_hardware_interface.md). -/

/-- Table 3.4 (R361): the bus cycle type by STEN, NPS1, NPS2, CMD0 and W/R; at the two I/O ports (R360), 800000F8h is the
command port and 800000FCh the data port, and a memory cycle selects nothing. The bus state machine (R370): in each CLK
without RESETIN that is not refused, TI goes to TRS when ADS is active (LOW) and stays otherwise; TRS stays until READY is
active (LOW), and then goes to TP when ADS is active, else to TI; TP goes to TRS; the cycle type is latched with ADS, and
the TRS states of a cycle are counted. That a read, or an operand write of FLDENV or FRSTOR, ends so without the wait state
of R363 when READY is active in its first TRS state is the model's choice (log 38). The outputs (R354, R357, R358, R363, R372): with STEN inactive all float. With STEN
active READYO, BUSY, PEREQ and ERROR are driven: ERROR is LOW exactly when SW.ES is set, BUSY LOW and PEREQ HIGH when
active; READYO is LOW exactly in the first TRS state of an opcode write or an operand write, but in the second of a read or
of an operand write of FLDENV or FRSTOR; and D31-D0 are driven exactly in the TRS states of a selected read. In reset they
have the levels of Table 3.3 (R356), from the CLK after the one in which RESETIN first is HIGH (the model's choice, log 44).
-/
def Obligations.BusCyclesAndStates : Prop :=
  (∀ (p : BusPins),
    (p.sten = false → cycleType p = .floating) ∧
    (p.sten = true → p.nps1 = true → cycleType p = .notSelected) ∧
    (p.sten = true → p.nps2 = false → cycleType p = .notSelected) ∧
    (p.sten = true → p.nps1 = false → p.nps2 = true →
      cycleType p = match p.cmd0, p.wr with
        | false, false => .controlRead
        | false, true => .opcodeWrite
        | true, false => .dataRead
        | true, true => .dataWrite) ∧
    (p.sten = true →
      cycleType (p.atIo 0x800000F8) = (if p.wr then .opcodeWrite else .controlRead) ∧
      cycleType (p.atIo 0x800000FC) = (if p.wr then .dataWrite else .dataRead) ∧
      (∀ a : DWord, a.getLsbD 31 = false → cycleType (p.atIo a) = .notSelected) ∧
      ∀ a : DWord, cycleType (p.atMemory a) = .notSelected)) ∧
  (∀ (s t : State) (p : BusPins) (ev : UnitEvents), p.resetin = false → busClock s p ev = .next t →
    (s.bus.phase = .ti →
      (p.ads = true → t.bus.phase = .ti ∧ t.bus.cycle = s.bus.cycle) ∧
      (p.ads = false → t.bus.phase = .trs ∧ t.bus.cycle = some { kind := cycleType p, trs := 1 })) ∧
    (s.bus.phase = .trs →
      (p.ready = true → t.bus.phase = .trs ∧ ∀ c, s.bus.cycle = some c →
        t.bus.cycle = some { kind := c.kind, trs := c.trs + 1 }) ∧
      (p.ready = false → p.ads = true → t.bus.phase = .ti ∧ t.bus.cycle = none) ∧
      (p.ready = false → p.ads = false →
        t.bus.phase = .tp ∧ t.bus.cycle = some { kind := cycleType p, trs := 0 })) ∧
    (s.bus.phase = .tp → t.bus.phase = .trs ∧ ∀ c, s.bus.cycle = some c →
      t.bus.cycle = some { kind := c.kind, trs := 1 }) ∧
    t.mem = s.mem ∧ t.cpu = s.cpu) ∧
  (∀ (s : State) (p : BusPins), p.sten = false →
    busOutputs s p = { readyo := none, busy := none, pereq := none, error := none, data := none }) ∧
  (∀ (s : State) (p : BusPins), p.sten = true →
    (busOutputs s p).error = some (!s.npx.sw.es) ∧ (busOutputs s p).busy = some (!s.bus.busy) ∧
    (busOutputs s p).pereq = some s.bus.pereq ∧ (busOutputs s p).readyo.isSome = true ∧
    ((busOutputs s p).readyo = some false ↔ ∃ c, s.bus.phase = .trs ∧ s.bus.cycle = some c ∧
      ((c.kind = .opcodeWrite ∧ c.trs = 1) ∨ (c.kind = .controlRead ∧ c.trs = 2) ∨ (c.kind = .dataRead ∧ c.trs = 2) ∨
        (c.kind = .dataWrite ∧ c.trs = if s.bus.envLoad then 2 else 1))) ∧
    ((busOutputs s p).data.isSome = true ↔ ∃ c, s.bus.phase = .trs ∧ s.bus.cycle = some c ∧
      (c.kind = .controlRead ∨ c.kind = .dataRead))) ∧
  ∀ (s : State) (p : BusPins) (ev : UnitEvents), p.resetin = true →
    ∃ t, busClock s p ev = .next t ∧ t.bus.phase = .ti ∧ ∀ r : BusPins, r.sten = true →
      busOutputs t r =
        { readyo := some true, busy := some true, pereq := some false, error := some false, data := none }

/-- The handshake (R357, R364, R366, R374, R452). BusUnit.reset meets the bus unit's invariant and one CLK keeps it;
PEREQ rises and the NPX state, with it ERROR, changes only while BUSY is active; ERROR changes only once PEREQ has been
inactive for three CLK and stays so, and becomes inactive only under an opcode marked, when written, as FNINIT's,
FNCLEX's, FNSTENV's or FNSAVE's; BUSY ends only with PEREQ inactive, after three CLK of BUSY and three after ERROR
changed; BUSY follows an opcode write by two CLK. An opcode written within 50 387CLK2 of RESETIN's fall, measured to
the end of the write (the model's choice, log 44), and a RESETIN pulse below 40, are refused (U17); with neither, a CLK
goes on if no write ends in it, or an opcode write after t36. The counts: busyIn is 2 after an opcode write, else one
less each CLK, and from 1 BUSY starts; busyFor is 0 there and counts the further CLK of BUSY; errorFor is none there, 0
after ERROR changes, and counts on; quietFor is 0 after a CLK with PEREQ active and counts those of BUSY with it
inactive, from 2 where BUSY rises. The end of BUSY clears busyFor and errorFor; without BUSY the three stand. settle is
50 under RESETIN and falls by the 387CLK2 of each later CLK, two, or in asynchronous mode one to three, an input;
resetFor counts them while RESETIN is HIGH, else is 0. The model's choice (log 38): what the data interface decides and
when, and which opcode is marked, is an input; the NPX state moves only under BUSY; the FIFO is emptied when BUSY ends,
so that it holds at most the operand written in that CLK; the three CLK before ERROR becomes inactive, and from then to
the end of BUSY, since t34 and t33 speak of ERROR becoming active only; and what an opcode written while an instruction
is in progress does to that instruction. -/
def Obligations.BusHandshake : Prop :=
  BusUnit.reset.Inv ∧
  (∀ (s t : State) (p : BusPins) (ev : UnitEvents), s.bus.Inv → busClock s p ev = .next t → t.bus.Inv) ∧
  (∀ (s t : State) (p : BusPins) (ev : UnitEvents), p.resetin = false → busClock s p ev = .next t →
    (s.bus.pereq = false → t.bus.pereq = true → s.bus.busy = true ∧ t.bus.busy = true) ∧
    (t.npx ≠ s.npx → s.bus.busy = true) ∧
    (t.npx.sw.es ≠ s.npx.sw.es →
      t.bus.busy = true ∧ s.bus.pereq = false ∧ t.bus.pereq = false ∧ 2 ≤ s.bus.quietFor ∧ t.bus.errorFor = some 0) ∧
    (s.npx.sw.es = true → t.npx.sw.es = false → s.bus.clearsError = true ∧ s.bus.busyIn = 0) ∧
    (s.bus.busyIn = 1 → t.bus.busy = true ∧ t.bus.busyFor = 0 ∧ t.bus.errorFor = none ∧
      (s.bus.busy = false → t.bus.quietFor = 2)) ∧
    (s.bus.busyIn ≠ 1 → t.bus.busy = true → s.bus.busy = true ∧ t.bus.busyFor = s.bus.busyFor + 1 ∧
      t.bus.errorFor = if t.npx.sw.es = s.npx.sw.es then s.bus.errorFor.map (· + 1) else some 0) ∧
    (s.bus.busy = true → t.bus.busy = true → t.bus.quietFor = if s.bus.pereq then 0 else s.bus.quietFor + 1) ∧
    (s.bus.busy = true → t.bus.busy = false →
      s.bus.pereq = false ∧ 2 ≤ s.bus.busyFor ∧ t.bus.fifo.length ≤ 1 ∧ (∀ n, s.bus.errorFor = some n → 2 ≤ n) ∧
      t.bus.busyFor = 0 ∧ t.bus.errorFor = none) ∧
    (s.bus.busy = false → t.bus.busy = false →
      t.bus.busyFor = s.bus.busyFor ∧ t.bus.errorFor = s.bus.errorFor ∧ t.bus.quietFor = s.bus.quietFor) ∧
    (s.bus.cycleEnds p .opcodeWrite →
      t.bus.opcode = some p.data ∧ t.bus.busyIn = 2 ∧ t.bus.clearsError = ev.clearsError) ∧
    (¬ s.bus.cycleEnds p .opcodeWrite → t.bus.busyIn = s.bus.busyIn - 1 ∧ t.bus.clearsError = s.bus.clearsError) ∧
    t.bus.settle = s.bus.settle - busTicks p ev ∧ t.bus.resetFor = 0) ∧
  (∀ (s : State) (p : BusPins) (ev : UnitEvents), p.resetin = true →
    ∃ t, busClock s p ev = .next t ∧ t.bus.settle = 50 ∧ t.bus.resetFor = s.bus.resetFor + busTicks p ev) ∧
  (∀ (p : BusPins) (ev : UnitEvents), (p.ckm = true → busTicks p ev = 2) ∧
    (p.ckm = false → 1 ≤ busTicks p ev ∧ busTicks p ev ≤ 3 ∧
      (1 ≤ ev.ticks → ev.ticks ≤ 3 → busTicks p ev = ev.ticks))) ∧
  (∀ (s : State) (p : BusPins) (ev : UnitEvents), p.resetin = false → s.bus.resetFor ≠ 0 → s.bus.resetFor < 40 →
    busClock s p ev = .refused .busTiming) ∧
  (∀ (s : State) (p : BusPins) (ev : UnitEvents), p.resetin = false → s.bus.cycleEnds p .opcodeWrite →
    busTicks p ev < s.bus.settle → busClock s p ev = .refused .busTiming) ∧
  ∀ (s : State) (p : BusPins) (ev : UnitEvents), p.resetin = false → (s.bus.resetFor = 0 ∨ 40 ≤ s.bus.resetFor) →
    ((¬ s.bus.cycleEnds p .opcodeWrite ∧ ¬ s.bus.cycleEnds p .dataWrite) ∨
      (s.bus.cycleEnds p .opcodeWrite ∧ s.bus.settle ≤ busTicks p ev ∧ s.bus.writeGap ≤ 1)) →
    ∃ t, busClock s p ev = .next t
end

