-- ==== Sys2Proof/Laws/Bus.lean ====
section
/-! SUPPORT. The bus level: what each part of a clock leaves alone, and the one lemma that says all that `busClock` can
answer. -/

namespace Sys2Proof.Machine

/-! The parts of a clock, field by field. -/

@[simp] theorem BusUnit.clockGaps_phase (u : BusUnit) (n : Nat) : (u.clockGaps n).phase = u.phase := rfl
@[simp] theorem BusUnit.clockGaps_cycle (u : BusUnit) (n : Nat) : (u.clockGaps n).cycle = u.cycle := rfl
@[simp] theorem BusUnit.clockGaps_busy (u : BusUnit) (n : Nat) : (u.clockGaps n).busy = u.busy := rfl
@[simp] theorem BusUnit.clockGaps_busyIn (u : BusUnit) (n : Nat) : (u.clockGaps n).busyIn = u.busyIn := rfl
@[simp] theorem BusUnit.clockGaps_busyFor (u : BusUnit) (n : Nat) : (u.clockGaps n).busyFor = u.busyFor := rfl
@[simp] theorem BusUnit.clockGaps_pereq (u : BusUnit) (n : Nat) : (u.clockGaps n).pereq = u.pereq := rfl
@[simp] theorem BusUnit.clockGaps_pieces (u : BusUnit) (n : Nat) : (u.clockGaps n).pieces = u.pieces := rfl
@[simp] theorem BusUnit.clockGaps_quietFor (u : BusUnit) (n : Nat) : (u.clockGaps n).quietFor = u.quietFor := rfl
@[simp] theorem BusUnit.clockGaps_errorFor (u : BusUnit) (n : Nat) : (u.clockGaps n).errorFor = u.errorFor := rfl
@[simp] theorem BusUnit.clockGaps_fifo (u : BusUnit) (n : Nat) : (u.clockGaps n).fifo = u.fifo := rfl
@[simp] theorem BusUnit.clockGaps_opcode (u : BusUnit) (n : Nat) : (u.clockGaps n).opcode = u.opcode := rfl
@[simp] theorem BusUnit.clockGaps_envLoad (u : BusUnit) (n : Nat) : (u.clockGaps n).envLoad = u.envLoad := rfl
@[simp] theorem BusUnit.clockGaps_clearsError (u : BusUnit) (n : Nat) : (u.clockGaps n).clearsError = u.clearsError := rfl
@[simp] theorem BusUnit.clockGaps_settle (u : BusUnit) (n : Nat) : (u.clockGaps n).settle = u.settle - n := rfl

@[simp] theorem BusUnit.clockGaps_resetFor (u : BusUnit) (n : Nat) : (u.clockGaps n).resetFor = 0 := rfl
@[simp] theorem BusUnit.clockGaps_writeGap (u : BusUnit) (n : Nat) : (u.clockGaps n).writeGap = u.writeGap - 1 := rfl
@[simp] theorem BusUnit.clockGaps_dataGap (u : BusUnit) (n : Nat) : (u.clockGaps n).dataGap = u.dataGap - 1 := rfl
@[simp] theorem BusUnit.clockGaps_ends (u : BusUnit) (n : Nat) (ev : UnitEvents) : (u.clockGaps n).ends ev = u.ends ev := rfl
@[simp] theorem BusUnit.clockGaps_raises (u : BusUnit) (n : Nat) (ev : UnitEvents) :
    (u.clockGaps n).raises ev = u.raises ev := rfl

@[simp] theorem BusUnit.clockGaps_cycleEnds (u : BusUnit) (n : Nat) (p : BusPins) (k : CycleType) :
    (u.clockGaps n).cycleEnds p k ↔ u.cycleEnds p k := Iff.rfl

@[simp] theorem BusUnit.clockUnit_phase (u : BusUnit) (ev : UnitEvents) (e : Bool) :
    (u.clockUnit ev e).phase = u.phase := by
  unfold BusUnit.clockUnit; repeat' split
  all_goals rfl
@[simp] theorem BusUnit.clockUnit_cycle (u : BusUnit) (ev : UnitEvents) (e : Bool) :
    (u.clockUnit ev e).cycle = u.cycle := by
  unfold BusUnit.clockUnit; repeat' split
  all_goals rfl
@[simp] theorem BusUnit.clockUnit_opcode (u : BusUnit) (ev : UnitEvents) (e : Bool) :
    (u.clockUnit ev e).opcode = u.opcode := by
  unfold BusUnit.clockUnit; repeat' split
  all_goals rfl

@[simp] theorem BusUnit.clockUnit_envLoad (u : BusUnit) (ev : UnitEvents) (e : Bool) :
    (u.clockUnit ev e).envLoad = u.envLoad := by
  unfold BusUnit.clockUnit; repeat' split
  all_goals rfl
@[simp] theorem BusUnit.clockUnit_clearsError (u : BusUnit) (ev : UnitEvents) (e : Bool) :
    (u.clockUnit ev e).clearsError = u.clearsError := by
  unfold BusUnit.clockUnit; repeat' split
  all_goals rfl

@[simp] theorem BusUnit.clockUnit_settle (u : BusUnit) (ev : UnitEvents) (e : Bool) :
    (u.clockUnit ev e).settle = u.settle := by
  unfold BusUnit.clockUnit; repeat' split
  all_goals rfl
@[simp] theorem BusUnit.clockUnit_resetFor (u : BusUnit) (ev : UnitEvents) (e : Bool) :
    (u.clockUnit ev e).resetFor = u.resetFor := by
  unfold BusUnit.clockUnit; repeat' split
  all_goals rfl
/-- The CLK awaited before BUSY are counted down in every CLK (t35 of R374). -/
@[simp] theorem BusUnit.clockUnit_busyIn (u : BusUnit) (ev : UnitEvents) (e : Bool) :
    (u.clockUnit ev e).busyIn = u.busyIn - 1 := by
  unfold BusUnit.clockUnit; split
  · simp_all
  · split
    · rfl
    · split <;> rfl

/-- The end of a cycle is seen by phase and cycle alone, which the data interface leaves. -/
@[simp] theorem BusUnit.clockUnit_cycleEnds (u : BusUnit) (ev : UnitEvents) (e : Bool) (p : BusPins) (k : CycleType) :
    (u.clockUnit ev e).cycleEnds p k ↔ u.cycleEnds p k := by simp [BusUnit.cycleEnds]

/-! The four things one CLK of the data interface can be: BUSY starts, it ends, it goes on, or it stays inactive. -/

/-- BUSY ends only while it is active, with PEREQ inactive, after three CLK of it (t32), and three after ERROR changed (t33). -/
theorem BusUnit.ends_elim {u : BusUnit} {ev : UnitEvents} (h : u.ends ev = true) :
    u.busyIn ≠ 1 ∧ u.busy = true ∧ u.pereq = false ∧ 2 ≤ u.busyFor ∧ ∀ n, u.errorFor = some n → 2 ≤ n := by
  simp only [BusUnit.ends, BusUnit.mayEnd, Bool.and_eq_true, Bool.not_eq_true', decide_eq_true_eq, bne_iff_ne,
    Option.all_eq_true] at h
  obtain ⟨⟨_, ⟨⟨a, b⟩, c⟩, d⟩, e⟩ := h
  exact ⟨e, a, b, c, d⟩

/-- BUSY starts (t35). -/
theorem BusUnit.clockUnit_starts {u : BusUnit} (ev : UnitEvents) (e : Bool) (h : u.busyIn = 1) :
    (u.clockUnit ev e).busy = true ∧ (u.clockUnit ev e).busyFor = 0 ∧ (u.clockUnit ev e).errorFor = none ∧
      (u.clockUnit ev e).pereq = u.pereq ∧
      (u.clockUnit ev e).quietFor = if u.busy then (if u.pereq then 0 else u.quietFor + 1) else 2 := by
  simp [BusUnit.clockUnit, h]

/-- BUSY ends. -/
theorem BusUnit.clockUnit_ends {u : BusUnit} {ev : UnitEvents} (e : Bool) (h : u.ends ev = true) :
    (u.clockUnit ev e).busy = false ∧ (u.clockUnit ev e).busyFor = 0 ∧ (u.clockUnit ev e).errorFor = none ∧
      (u.clockUnit ev e).pereq = u.pereq ∧ (u.clockUnit ev e).quietFor = u.quietFor ∧ (u.clockUnit ev e).fifo = [] := by
  simp [BusUnit.clockUnit, h, (BusUnit.ends_elim h).1]

/-- BUSY goes on. -/
theorem BusUnit.clockUnit_goes_on {u : BusUnit} {ev : UnitEvents} (e : Bool) (i : u.busyIn ≠ 1) (h : u.ends ev = false)
    (b : u.busy = true) :
    (u.clockUnit ev e).busy = true ∧ (u.clockUnit ev e).busyFor = u.busyFor + 1 ∧
      (u.clockUnit ev e).errorFor = (if e then some 0 else u.errorFor.map (· + 1)) ∧
      (u.clockUnit ev e).pereq = (u.pereq || u.raises ev) ∧
      (u.clockUnit ev e).quietFor = if u.pereq then 0 else u.quietFor + 1 := by
  simp [BusUnit.clockUnit, i, h, b]

/-- BUSY stays inactive. -/
theorem BusUnit.clockUnit_idle {u : BusUnit} (ev : UnitEvents) (e : Bool) (i : u.busyIn ≠ 1) (b : u.busy = false) :
    u.clockUnit ev e = { u with busyIn := u.busyIn - 1 } := by
  simp [BusUnit.clockUnit, BusUnit.ends, BusUnit.mayEnd, i, b]

@[simp] theorem BusUnit.endCycle_quietFor (u : BusUnit) (k : CycleType) (p : BusPins) (ev : UnitEvents) :
    (u.endCycle k p ev).quietFor = u.quietFor := by cases k <;> rfl
@[simp] theorem BusUnit.endCycle_settle (u : BusUnit) (k : CycleType) (p : BusPins) (ev : UnitEvents) :
    (u.endCycle k p ev).settle = u.settle := by cases k <;> rfl
@[simp] theorem BusUnit.endCycle_resetFor (u : BusUnit) (k : CycleType) (p : BusPins) (ev : UnitEvents) :
    (u.endCycle k p ev).resetFor = u.resetFor := by cases k <;> rfl
@[simp] theorem BusUnit.endCycle_busy (u : BusUnit) (k : CycleType) (p : BusPins) (ev : UnitEvents) :
    (u.endCycle k p ev).busy = u.busy := by cases k <;> rfl
@[simp] theorem BusUnit.endCycle_errorFor (u : BusUnit) (k : CycleType) (p : BusPins) (ev : UnitEvents) :
    (u.endCycle k p ev).errorFor = u.errorFor := by cases k <;> rfl
@[simp] theorem BusUnit.endCycle_busyFor (u : BusUnit) (k : CycleType) (p : BusPins) (ev : UnitEvents) :
    (u.endCycle k p ev).busyFor = u.busyFor := by cases k <;> rfl

@[simp] theorem BusUnit.clockPhase_busy (u : BusUnit) (p : BusPins) (ev : UnitEvents) :
    (u.clockPhase p ev).busy = u.busy := by
  unfold BusUnit.clockPhase; repeat' split
  all_goals simp
@[simp] theorem BusUnit.clockPhase_errorFor (u : BusUnit) (p : BusPins) (ev : UnitEvents) :
    (u.clockPhase p ev).errorFor = u.errorFor := by
  unfold BusUnit.clockPhase; repeat' split
  all_goals simp

@[simp] theorem BusUnit.clockPhase_busyFor (u : BusUnit) (p : BusPins) (ev : UnitEvents) :
    (u.clockPhase p ev).busyFor = u.busyFor := by
  unfold BusUnit.clockPhase; repeat' split
  all_goals simp
@[simp] theorem BusUnit.clockPhase_quietFor (u : BusUnit) (p : BusPins) (ev : UnitEvents) :
    (u.clockPhase p ev).quietFor = u.quietFor := by
  unfold BusUnit.clockPhase; repeat' split
  all_goals simp
@[simp] theorem BusUnit.clockPhase_settle (u : BusUnit) (p : BusPins) (ev : UnitEvents) :
    (u.clockPhase p ev).settle = u.settle := by
  unfold BusUnit.clockPhase; repeat' split
  all_goals simp
@[simp] theorem BusUnit.clockPhase_resetFor (u : BusUnit) (p : BusPins) (ev : UnitEvents) :
    (u.clockPhase p ev).resetFor = u.resetFor := by
  unfold BusUnit.clockPhase; repeat' split
  all_goals simp

/-- The end of an opcode write latches the opcode and its marks, and BUSY is awaited (R362, t35 of R374). -/
theorem BusUnit.clockPhase_opcode {u : BusUnit} {p : BusPins} (ev : UnitEvents) (h : u.cycleEnds p .opcodeWrite) :
    (u.clockPhase p ev).opcode = some p.data ∧ (u.clockPhase p ev).busyIn = 2 ∧
      (u.clockPhase p ev).clearsError = ev.clearsError := by
  obtain ⟨a, r, n, c⟩ := h
  simp only [BusUnit.clockPhase, a, r, c, Bool.false_eq_true, if_false]
  split <;> exact ⟨rfl, rfl, rfl⟩

/-- Any other CLK leaves them. -/
theorem BusUnit.clockPhase_no_opcode {u : BusUnit} {p : BusPins} (ev : UnitEvents)
    (h : ¬ u.cycleEnds p .opcodeWrite) :
    (u.clockPhase p ev).opcode = u.opcode ∧ (u.clockPhase p ev).busyIn = u.busyIn ∧
      (u.clockPhase p ev).clearsError = u.clearsError := by
  unfold BusUnit.clockPhase
  split
  · split <;> exact ⟨rfl, rfl, rfl⟩
  · exact ⟨rfl, rfl, rfl⟩
  · split
    · exact ⟨rfl, rfl, rfl⟩
    · rename_i hp hr
      have hr' : p.ready = false := by simpa using hr
      split <;> split
      all_goals first
        | exact ⟨rfl, rfl, rfl⟩
        | (rename_i c hc _
           obtain ⟨k, n⟩ := c
           cases k with
           | opcodeWrite => exact absurd ⟨hp, hr', n, hc⟩ h
           | _ => exact ⟨rfl, rfl, rfl⟩)

/-- A write is too soon exactly when it ends in this CLK before the times of t31, t36 and t37 are over (R374). -/
theorem BusUnit.tooSoon_iff {u : BusUnit} {p : BusPins} :
    u.tooSoon p = true ↔
      (u.cycleEnds p .opcodeWrite ∧ (u.settle ≠ 0 ∨ u.writeGap ≠ 0)) ∨
      (u.cycleEnds p .dataWrite ∧ (u.writeGap ≠ 0 ∨ u.dataGap ≠ 0)) := by
  unfold BusUnit.tooSoon BusUnit.cycleEnds
  split
  · rename_i c hp hc
    obtain ⟨k, n⟩ := c
    cases k <;> simp [hp, hc]
  · rename_i h
    constructor
    · intro x; cases x
    · rintro (⟨⟨a, _, n, c⟩, _⟩ | ⟨⟨a, _, n, c⟩, _⟩) <;> exact absurd c (h _ a)

/-- When ERROR may change, BUSY is active, and PEREQ is inactive, has been for three CLK and stays so (t34 of R374). -/
theorem BusUnit.mayReport_elim {u : BusUnit} {ev : UnitEvents} (h : u.mayReport ev = true) :
    u.busy = true ∧ u.busyIn ≠ 1 ∧ u.ends ev = false ∧ u.pereq = false ∧ u.raises ev = false ∧ 2 ≤ u.quietFor ∧
      u.errorFor = none := by
  simpa [BusUnit.mayReport, and_assoc] using h

/-- What the unit reports is its input, and only while BUSY is active; with a changed ERROR only when it may change, and
with an inactive one only under an instruction that may make it so. -/
theorem State.reported_eq_some {s : State} {ev : UnitEvents} {x : Npx} (h : s.reported ev = some x) :
    ev.result = some x ∧ s.bus.busy = true ∧
      (x.sw.es = s.npx.sw.es ∨ (s.bus.mayReport ev = true ∧ (x.sw.es = true ∨ s.bus.mayClear = true))) := by
  unfold State.reported at h
  split at h
  · split at h
    · rename_i y _ c
      cases h
      simp only [Bool.or_eq_true, Bool.and_eq_true, beq_iff_eq] at c
      rcases c with ⟨c, d⟩ | c
      · exact ⟨‹_›, c, .inl d⟩
      · exact ⟨‹_›, (BusUnit.mayReport_elim c.1).1, .inr c⟩
    · cases h
  · cases h

/-- One CLK has a next state exactly when RESETIN is HIGH, or it is LOW and no minimum time is broken; and it is the state
given here. -/
theorem busClock_eq_next_iff {s t : State} {p : BusPins} {ev : UnitEvents} :
    busClock s p ev = .next t ↔
      (p.resetin = true ∧
        t = { s.hardReset with bus := { BusUnit.reset with resetFor := s.bus.resetFor + busTicks p ev } }) ∨
      (p.resetin = false ∧ s.bus.resetTooShort = false ∧ (s.bus.clockGaps (busTicks p ev)).tooSoon p = false ∧
        t = { s with
          npx := (s.reported ev).getD s.npx,
          bus := ((s.bus.clockGaps (busTicks p ev)).clockUnit ev
            ((s.reported ev).any fun x => x.sw.es != s.npx.sw.es)).clockPhase p ev,
          draws := s.draws + 1 }) := by
  unfold busClock
  dsimp only
  constructor
  · intro h
    split at h
    · cases h; exact .inl ⟨‹_›, rfl⟩
    split at h
    · cases h
    split at h
    · cases h
    cases h
    exact .inr ⟨Bool.eq_false_iff.mpr ‹_›, Bool.eq_false_iff.mpr ‹_›, Bool.eq_false_iff.mpr ‹_›, rfl⟩
  · rintro (⟨a, rfl⟩ | ⟨a, b, c, rfl⟩)
    · rw [if_pos a]
    · rw [if_neg (by rw [a]; decide), if_neg (by rw [b]; decide), if_neg (by rw [c]; decide)]

/-- One CLK without a next state is refused, and for a minimum time. -/
theorem busClock_stops {s : State} {p : BusPins} {ev : UnitEvents} (h : ∀ t, busClock s p ev ≠ .next t) :
    busClock s p ev = .refused .busTiming := by
  unfold busClock at *
  dsimp only at *
  split
  · exact absurd (if_pos ‹_›) (h _)
  split
  · rfl
  split
  · rfl
  exact absurd ((if_neg ‹_›).trans ((if_neg ‹_›).trans (if_neg ‹_›))) (h _)

end Sys2Proof.Machine
end

