-- ==== Sys2Proof/Laws/Fetch.lean ====
section
/-! SUPPORT. What fetching can answer, said once. -/

namespace Sys2Proof.Machine

/-- The k-th code byte is at or past a boundary exactly when its offset is beyond the limit, or beyond 0FFFFh in a small
segment, or its linear address is beyond 0FFFFFFFFh (R24). -/
theorem State.codeInLimit_eq_false_iff {s : State} {k : Nat} :
    s.codeInLimit k = false ↔ s.cpu.cs.limit.toNat < s.cpu.eip.toNat + k ∨
      (s.cpu.cs.big = false ∧ 2 ^ 16 ≤ s.cpu.eip.toNat + k) ∨
      2 ^ 32 ≤ s.cpu.cs.base.toNat + (s.cpu.eip.toNat + k) := by
  have h := s.cpu.cs.limit.isLt
  unfold State.codeInLimit Segment.offsetModulus
  cases s.cpu.cs.big <;> simp <;> omega

/-- `fetch` answers interrupt 7 exactly when the opcode byte meets it and no NPX store wrote the bytes up to it (R107, R90). -/
theorem State.fetch_eq_trap7_iff {s : State} :
    s.fetch = .trap7 ↔ s.meetsSeven = true ∧ s.codeStored s.openingLength = false := by
  unfold State.fetch
  constructor
  · intro h; repeat' split at h
    all_goals first | exact ⟨‹_›, Bool.eq_false_iff.mpr ‹_›⟩ | cases h
  · rintro ⟨a, b⟩; rw [if_pos a, if_neg (by rw [b]; decide)]

/-- `fetch` answers an instruction exactly when no interrupt 7 is met, the bytes decode to it, no NPX store wrote them, and
it ends before the end of the segment and of the address space. -/
theorem State.fetch_eq_instr_iff {s : State} {i : Instr} :
    s.fetch = .instr i ↔ s.meetsSeven = false ∧ (∃ rest, decode s.cpu.adSize32 s.code = .ok (i, rest)) ∧
      s.codeStored i.length = false ∧ s.codeInLimit i.length = true := by
  unfold State.fetch
  constructor
  · intro h
    split at h
    · split at h <;> cases h
    split at h
    · split at h
      · cases h
      split at h
      · cases h
        exact ⟨Bool.eq_false_iff.mpr ‹_›, ⟨_, ‹_›⟩, Bool.eq_false_iff.mpr ‹_›, ‹_›⟩
      · cases h
    · cases h
    · cases h
    · cases h
    · split at h <;> cases h
  · rintro ⟨a, ⟨r, b⟩, c, d⟩
    rw [if_neg (by rw [a]; decide), b]
    dsimp only
    rw [if_neg (by rw [c]; decide), if_pos d]

end Sys2Proof.Machine
end

