-- ==== Sys2Proof/Laws/Memory.lean ====
section
/-! SUPPORT. The laws of memory: a read after a write, every other byte as before, and the canonical form kept by every
memory operation. -/

namespace Sys2Proof.Machine

/-! The canonical form, restated over all entries. -/

theorem cellsWf_cons (a : Nat) (b : Byte) (t : List Host.Cell) :
    cellsWf ((a, b) :: t) = true ↔ a < 2 ^ 32 ∧ b ≠ 0 ∧ (∀ c ∈ t, a < c.1) ∧ cellsWf t = true := by
  simp [cellsWf, and_assoc]

theorem addrsWf_cons (a : Nat) (t : List Nat) :
    addrsWf (a :: t) = true ↔ a < 2 ^ 32 ∧ (∀ c ∈ t, a < c) ∧ addrsWf t = true := by
  simp [addrsWf, and_assoc]

/-- An address below every entry reads as an unlisted one. -/
theorem cellAt_below (a : Nat) (l : List Host.Cell) (h : ∀ c ∈ l, a < c.1) : cellAt a l = 0 := by
  induction l with
  | nil => rfl
  | cons c t ih =>
    have hc := h c (by simp)
    obtain ⟨a', b⟩ := c
    simp only [cellAt]
    rw [if_neg (by simp at hc; omega)]
    exact ih fun c hc => h c (by simp [hc])

/-! One byte. -/

theorem mem_setCell (a : Nat) (b : Byte) (l : List Host.Cell) (c : Host.Cell) (h : c ∈ setCell a b l) :
    c.1 = a ∨ c ∈ l := by
  induction l with
  | nil => simp only [setCell] at h; split at h <;> simp_all
  | cons d t ih =>
    obtain ⟨a', b'⟩ := d
    simp only [setCell] at h
    split at h
    · split at h
      · exact .inr h
      · rcases List.mem_cons.1 h with rfl | h
        · exact .inl rfl
        · exact .inr h
    · split at h
      · split at h
        · exact .inr (List.mem_cons_of_mem _ h)
        · rcases List.mem_cons.1 h with rfl | h
          · exact .inl rfl
          · exact .inr (List.mem_cons_of_mem _ h)
      · rcases List.mem_cons.1 h with rfl | h
        · exact .inr (by simp)
        · rcases ih h with h | h
          · exact .inl h
          · exact .inr (List.mem_cons_of_mem _ h)

/-- A write keeps the canonical form. -/
theorem cellsWf_setCell (a : Nat) (b : Byte) (l : List Host.Cell) (ha : a < 2 ^ 32) (h : cellsWf l = true) :
    cellsWf (setCell a b l) = true := by
  induction l with
  | nil =>
    simp only [setCell]
    split
    · rfl
    · rw [cellsWf_cons]; simp_all [cellsWf]
  | cons d t ih =>
    obtain ⟨a', b'⟩ := d
    obtain ⟨h1, h2, h3, h4⟩ := (cellsWf_cons a' b' t).1 h
    simp only [setCell]
    split
    · rename_i hlt
      split
      · exact h
      · rename_i hb
        rw [cellsWf_cons]
        refine ⟨ha, hb, ?_, h⟩
        intro c hc
        rcases List.mem_cons.1 hc with rfl | hc
        · exact hlt
        · exact lt_trans hlt (h3 c hc)
    · split
      · rename_i heq
        split
        · exact h4
        · rename_i hb
          rw [cellsWf_cons]
          subst heq
          exact ⟨ha, hb, h3, h4⟩
      · rw [cellsWf_cons]
        refine ⟨h1, h2, ?_, ih h4⟩
        intro c hc
        rcases mem_setCell _ _ _ _ hc with h | h
        · omega
        · exact h3 c h

/-- The byte written reads back. -/
theorem cellAt_setCell_same (a : Nat) (b : Byte) (l : List Host.Cell) (h : cellsWf l = true) :
    cellAt a (setCell a b l) = b := by
  induction l with
  | nil => simp only [setCell]; split <;> simp_all [cellAt]
  | cons d t ih =>
    obtain ⟨a', b'⟩ := d
    obtain ⟨h1, h2, h3, h4⟩ := (cellsWf_cons a' b' t).1 h
    simp only [setCell]
    split
    · rename_i hlt
      split
      · rename_i hb
        rw [hb]
        apply cellAt_below
        intro c hc
        rcases List.mem_cons.1 hc with rfl | hc
        · exact hlt
        · exact lt_trans hlt (h3 c hc)
      · simp [cellAt]
    · split
      · rename_i heq
        subst heq
        split
        · rename_i hb
          rw [hb]; exact cellAt_below _ _ h3
        · simp [cellAt]
      · rename_i hne
        simp only [cellAt]
        rw [if_neg (fun e => hne e.symm)]
        exact ih h4

/-- Every other byte reads as before. -/
theorem cellAt_setCell_other (a a' : Nat) (b : Byte) (l : List Host.Cell) (h : a' ≠ a) :
    cellAt a' (setCell a b l) = cellAt a' l := by
  induction l with
  | nil => simp only [setCell]; split <;> simp [cellAt, h.symm]
  | cons d t ih =>
    obtain ⟨c, v⟩ := d
    simp only [setCell]
    split
    · split
      · rfl
      · simp [cellAt, h.symm]
    · split
      · rename_i heq
        subst heq
        split <;> simp [cellAt, h.symm]
      · simp only [cellAt]
        rw [ih]

theorem mem_insertAddr (a c : Nat) (l : List Nat) : c ∈ insertAddr a l ↔ c = a ∨ c ∈ l := by
  induction l with
  | nil => simp [insertAddr]
  | cons d t ih =>
    simp only [insertAddr]
    split
    · simp
    · split
      · rename_i h; subst h; simp
      · simp [ih]; tauto

theorem mem_removeAddr (a c : Nat) (l : List Nat) (h : c ∈ removeAddr a l) : c ∈ l := by
  induction l with
  | nil => simp [removeAddr] at h
  | cons d t ih =>
    simp only [removeAddr] at h
    split at h
    · exact List.mem_cons_of_mem _ h
    · rcases List.mem_cons.1 h with rfl | h
      · simp
      · exact List.mem_cons_of_mem _ (ih h)

theorem not_mem_removeAddr (a : Nat) (l : List Nat) (h : addrsWf l = true) : a ∉ removeAddr a l := by
  induction l with
  | nil => simp [removeAddr]
  | cons d t ih =>
    obtain ⟨h1, h2, h3⟩ := (addrsWf_cons d t).1 h
    simp only [removeAddr]
    split
    · rename_i e; subst e
      intro hm; exact absurd (h2 _ hm) (lt_irrefl _)
    · rename_i e
      simp [e, ih h3]

theorem addrsWf_insertAddr (a : Nat) (l : List Nat) (ha : a < 2 ^ 32) (h : addrsWf l = true) :
    addrsWf (insertAddr a l) = true := by
  induction l with
  | nil => rw [insertAddr, addrsWf_cons]; exact ⟨ha, by simp, rfl⟩
  | cons d t ih =>
    obtain ⟨h1, h2, h3⟩ := (addrsWf_cons d t).1 h
    simp only [insertAddr]
    split
    · rename_i hlt
      rw [addrsWf_cons]
      refine ⟨ha, ?_, h⟩
      intro c hc
      rcases List.mem_cons.1 hc with rfl | hc
      · exact hlt
      · exact lt_trans hlt (h2 c hc)
    · split
      · exact h
      · rw [addrsWf_cons]
        refine ⟨h1, ?_, ih h3⟩
        intro c hc
        rcases (mem_insertAddr _ _ _).1 hc with rfl | hc
        · omega
        · exact h2 c hc

theorem addrsWf_removeAddr (a : Nat) (l : List Nat) (h : addrsWf l = true) : addrsWf (removeAddr a l) = true := by
  induction l with
  | nil => rfl
  | cons d t ih =>
    obtain ⟨h1, h2, h3⟩ := (addrsWf_cons d t).1 h
    simp only [removeAddr]
    split
    · exact h3
    · rw [addrsWf_cons]
      exact ⟨h1, fun c hc => h2 c (mem_removeAddr _ _ _ hc), ih h3⟩

/-! Memory. -/

theorem Memory.wf_iff (m : Memory) : m.wf = true ↔ cellsWf m.cells = true ∧ addrsWf m.npxStored = true := by
  simp [Memory.wf]

theorem Memory.write_wf (m : Memory) (a : Nat) (b : Byte) (ha : a < 2 ^ 32) (h : m.wf = true) :
    (m.write a b).wf = true := by
  rw [Memory.wf_iff] at *
  exact ⟨cellsWf_setCell _ _ _ ha h.1, addrsWf_insertAddr _ _ ha h.2⟩

theorem Memory.place_wf (m : Memory) (a : Nat) (b : Byte) (ha : a < 2 ^ 32) (h : m.wf = true) :
    (m.place a b).wf = true := by
  rw [Memory.wf_iff] at *
  exact ⟨cellsWf_setCell _ _ _ ha h.1, addrsWf_removeAddr _ _ h.2⟩

theorem Memory.read_write_same (m : Memory) (a : Nat) (b : Byte) (h : m.wf = true) : (m.write a b).read a = b :=
  cellAt_setCell_same _ _ _ ((Memory.wf_iff m).1 h).1

theorem Memory.read_write_other (m : Memory) (a c : Nat) (b : Byte) (h : c ≠ a) : (m.write a b).read c = m.read c :=
  cellAt_setCell_other _ _ _ _ h

theorem Memory.read_place_same (m : Memory) (a : Nat) (b : Byte) (h : m.wf = true) : (m.place a b).read a = b :=
  cellAt_setCell_same _ _ _ ((Memory.wf_iff m).1 h).1

theorem Memory.read_place_other (m : Memory) (a c : Nat) (b : Byte) (h : c ≠ a) : (m.place a b).read c = m.read c :=
  cellAt_setCell_other _ _ _ _ h

theorem Memory.writeAll_wf (v : Nat) (as : List Nat) (m : Memory) (ha : ∀ a ∈ as, a < 2 ^ 32) (h : m.wf = true) :
    (m.writeAll v as).wf = true := by
  induction as generalizing m v with
  | nil => exact h
  | cons a as ih =>
    exact ih _ _ (fun c hc => ha c (by simp [hc])) (Memory.write_wf _ _ _ (ha a (by simp)) h)

/-- A wide write leaves every byte outside its addresses. -/
theorem Memory.read_writeAll_other (v : Nat) (as : List Nat) (m : Memory) (c : Nat) (h : c ∉ as) :
    (m.writeAll v as).read c = m.read c := by
  induction as generalizing m v with
  | nil => rfl
  | cons a as ih =>
    simp only [List.mem_cons, not_or] at h
    rw [Memory.writeAll, ih _ _ h.2, Memory.read_write_other _ _ _ _ h.1]

/-- A wide write reads back, modulo its width, where its addresses are distinct. -/
theorem Memory.readAll_writeAll (v : Nat) (as : List Nat) (m : Memory) (ha : ∀ a ∈ as, a < 2 ^ 32) (hn : as.Nodup)
    (h : m.wf = true) : (m.writeAll v as).readAll as = v % 2 ^ (8 * as.length) := by
  induction as generalizing m v with
  | nil => simp [Memory.readAll, Nat.mod_one]
  | cons a as ih =>
    have hw := Memory.write_wf m a (BitVec.ofNat 8 v) (ha a (by simp)) h
    rw [List.nodup_cons] at hn
    rw [Memory.writeAll, Memory.readAll, ih _ _ (fun c hc => ha c (by simp [hc])) hn.2 hw,
      Memory.read_writeAll_other _ _ _ _ hn.1, Memory.read_write_same _ _ _ h]
    simp only [BitVec.toNat_ofNat, List.length_cons]
    rw [show 8 * (as.length + 1) = 8 + 8 * as.length by ring, pow_add, Nat.mod_mul]
    norm_num

/-- Reading after writing elsewhere. -/
theorem Memory.readAll_writeAll_other (v : Nat) (as bs : List Nat) (m : Memory) (h : ∀ b ∈ bs, b ∉ as) :
    (m.writeAll v as).readAll bs = m.readAll bs := by
  induction bs with
  | nil => rfl
  | cons b bs ih =>
    rw [Memory.readAll, Memory.readAll, ih fun c hc => h c (by simp [hc]),
      Memory.read_writeAll_other _ _ _ _ (h b (by simp))]

/-- A read gives no more than its bytes hold. -/
theorem Memory.readAll_lt (m : Memory) (as : List Nat) : m.readAll as < 2 ^ (8 * as.length) := by
  induction as with
  | nil => simp [Memory.readAll]
  | cons a as ih =>
    have := (m.read a).isLt
    rw [Memory.readAll, List.length_cons, show 8 * (as.length + 1) = 8 + 8 * as.length by ring, pow_add]
    omega

/-! The addresses of an operand. -/

/-- The wrap of R92 in a small segment, wherever the operand starts. -/
theorem Operand.offset_small (o : Operand) (k : Nat) (h : o.seg.big = false) :
    o.offset k = (o.off.toNat + k) % 2 ^ 16 := by simp [Operand.offset, Segment.offsetModulus, h]

/-- The wrap of R92 in a big segment. -/
theorem Operand.offset_big (o : Operand) (k : Nat) (h : o.seg.big = true) :
    o.offset k = (o.off.toNat + k) % 2 ^ 32 := by simp [Operand.offset, Segment.offsetModulus, h]

/-- What the check of R91 asks: the start offset as computed, and every byte of the first piece, are within the limit. -/
theorem Operand.firstInLimit_iff (o : Operand) :
    o.firstInLimit = true ↔
      o.seg.contains o.off.toNat = true ∧ ∀ k, k < o.firstPiece → o.seg.contains (o.offset k) = true := by
  simp [Operand.firstInLimit]

theorem Operand.linear_lt (o : Operand) (k : Nat) : o.linear k < 2 ^ 32 := by
  simp only [Operand.linear]; exact Nat.mod_lt _ (by norm_num)

@[simp] theorem Operand.addrs_length (o : Operand) : o.addrs.length = o.bytes := by simp [Operand.addrs]

theorem Operand.addrs_lt (o : Operand) (a : Nat) (h : a ∈ o.addrs) : a < 2 ^ 32 := by
  simp only [Operand.addrs, List.mem_map] at h
  obtain ⟨k, _, rfl⟩ := h
  exact o.linear_lt k

/-- The bytes of an operand of at most 2^16 bytes are at distinct addresses. -/
theorem Operand.addrs_nodup (o : Operand) (h : o.bytes ≤ 2 ^ 16) : o.addrs.Nodup := by
  rw [Operand.addrs, List.nodup_map_iff_inj_on List.nodup_range]
  intro i hi j hj e
  simp only [List.mem_range] at hi hj
  simp only [Operand.linear, Operand.offset, Segment.offsetModulus] at e
  have hb := o.seg.base.isLt
  have ho := o.off.isLt
  split at e <;> omega

end Sys2Proof.Machine
end

