-- ==== Sys2Proof/Laws/State.lean ====
section
/-! SUPPORT. The small lemmas of State: one per field and update, true by rfl, and reading a register or a tag after an
update of one. -/

namespace Sys2Proof.Machine

/-! `setRegRaw`. -/

@[simp] theorem Npx.setRegRaw_cw (x : Npx) (k : Idx) (v : Ext) : (x.setRegRaw k v).cw = x.cw := rfl
@[simp] theorem Npx.setRegRaw_sw (x : Npx) (k : Idx) (v : Ext) : (x.setRegRaw k v).sw = x.sw := rfl
@[simp] theorem Npx.setRegRaw_tags (x : Npx) (k : Idx) (v : Ext) : (x.setRegRaw k v).tags = x.tags := rfl
@[simp] theorem Npx.setRegRaw_fip (x : Npx) (k : Idx) (v : Ext) : (x.setRegRaw k v).fip = x.fip := rfl
@[simp] theorem Npx.setRegRaw_fdp (x : Npx) (k : Idx) (v : Ext) : (x.setRegRaw k v).fdp = x.fdp := rfl
@[simp] theorem Npx.setRegRaw_fop (x : Npx) (k : Idx) (v : Ext) : (x.setRegRaw k v).fop = x.fop := rfl
@[simp] theorem Npx.setRegRaw_tag (x : Npx) (k : Idx) (v : Ext) (j : Idx) : (x.setRegRaw k v).tag j = x.tag j := rfl

/-! `setTag`. -/

@[simp] theorem Npx.setTag_cw (x : Npx) (k : Idx) (t : Tag) : (x.setTag k t).cw = x.cw := rfl
@[simp] theorem Npx.setTag_sw (x : Npx) (k : Idx) (t : Tag) : (x.setTag k t).sw = x.sw := rfl
@[simp] theorem Npx.setTag_regs (x : Npx) (k : Idx) (t : Tag) : (x.setTag k t).regs = x.regs := rfl
@[simp] theorem Npx.setTag_fip (x : Npx) (k : Idx) (t : Tag) : (x.setTag k t).fip = x.fip := rfl
@[simp] theorem Npx.setTag_fdp (x : Npx) (k : Idx) (t : Tag) : (x.setTag k t).fdp = x.fdp := rfl
@[simp] theorem Npx.setTag_fop (x : Npx) (k : Idx) (t : Tag) : (x.setTag k t).fop = x.fop := rfl
@[simp] theorem Npx.setTag_reg (x : Npx) (k : Idx) (t : Tag) (j : Idx) : (x.setTag k t).reg j = x.reg j := rfl

/-! `setReg`. -/

@[simp] theorem Npx.setReg_cw (x : Npx) (k : Idx) (v : Ext) : (x.setReg k v).cw = x.cw := rfl
@[simp] theorem Npx.setReg_sw (x : Npx) (k : Idx) (v : Ext) : (x.setReg k v).sw = x.sw := rfl
@[simp] theorem Npx.setReg_fip (x : Npx) (k : Idx) (v : Ext) : (x.setReg k v).fip = x.fip := rfl
@[simp] theorem Npx.setReg_fdp (x : Npx) (k : Idx) (v : Ext) : (x.setReg k v).fdp = x.fdp := rfl
@[simp] theorem Npx.setReg_fop (x : Npx) (k : Idx) (v : Ext) : (x.setReg k v).fop = x.fop := rfl

/-! `withSw`. -/

@[simp] theorem Npx.withSw_cw (x : Npx) (w : StatusWord) : (x.withSw w).cw = x.cw := rfl
@[simp] theorem Npx.withSw_regs (x : Npx) (w : StatusWord) : (x.withSw w).regs = x.regs := rfl
@[simp] theorem Npx.withSw_tags (x : Npx) (w : StatusWord) : (x.withSw w).tags = x.tags := rfl
@[simp] theorem Npx.withSw_fip (x : Npx) (w : StatusWord) : (x.withSw w).fip = x.fip := rfl
@[simp] theorem Npx.withSw_fdp (x : Npx) (w : StatusWord) : (x.withSw w).fdp = x.fdp := rfl
@[simp] theorem Npx.withSw_fop (x : Npx) (w : StatusWord) : (x.withSw w).fop = x.fop := rfl
@[simp] theorem Npx.withSw_reg (x : Npx) (w : StatusWord) (j : Idx) : (x.withSw w).reg j = x.reg j := rfl
@[simp] theorem Npx.withSw_tag (x : Npx) (w : StatusWord) (j : Idx) : (x.withSw w).tag j = x.tag j := rfl

@[simp] theorem Npx.withSw_sw (x : Npx) (w : StatusWord) : (x.withSw w).sw = w := rfl

/-! `withTop`. -/

@[simp] theorem Npx.withTop_cw (x : Npx) (t : Idx) : (x.withTop t).cw = x.cw := rfl
@[simp] theorem Npx.withTop_regs (x : Npx) (t : Idx) : (x.withTop t).regs = x.regs := rfl
@[simp] theorem Npx.withTop_tags (x : Npx) (t : Idx) : (x.withTop t).tags = x.tags := rfl
@[simp] theorem Npx.withTop_fip (x : Npx) (t : Idx) : (x.withTop t).fip = x.fip := rfl
@[simp] theorem Npx.withTop_fdp (x : Npx) (t : Idx) : (x.withTop t).fdp = x.fdp := rfl
@[simp] theorem Npx.withTop_fop (x : Npx) (t : Idx) : (x.withTop t).fop = x.fop := rfl
@[simp] theorem Npx.withTop_reg (x : Npx) (t : Idx) (j : Idx) : (x.withTop t).reg j = x.reg j := rfl
@[simp] theorem Npx.withTop_tag (x : Npx) (t : Idx) (j : Idx) : (x.withTop t).tag j = x.tag j := rfl

@[simp] theorem Npx.withTop_sw (x : Npx) (t : Idx) : (x.withTop t).sw = x.sw.withTop t := rfl

/-! `push`. -/

@[simp] theorem Npx.push_cw (x : Npx) (v : Ext) : (x.push v).cw = x.cw := rfl
@[simp] theorem Npx.push_fip (x : Npx) (v : Ext) : (x.push v).fip = x.fip := rfl
@[simp] theorem Npx.push_fdp (x : Npx) (v : Ext) : (x.push v).fdp = x.fdp := rfl
@[simp] theorem Npx.push_fop (x : Npx) (v : Ext) : (x.push v).fop = x.fop := rfl

@[simp] theorem Npx.push_sw (x : Npx) (v : Ext) : (x.push v).sw = x.sw.withTop (x.sw.top - 1) := rfl

/-! `pop`. -/

@[simp] theorem Npx.pop_cw (x : Npx) : (x.pop).cw = x.cw := rfl
@[simp] theorem Npx.pop_regs (x : Npx) : (x.pop).regs = x.regs := rfl
@[simp] theorem Npx.pop_fip (x : Npx) : (x.pop).fip = x.fip := rfl
@[simp] theorem Npx.pop_fdp (x : Npx) : (x.pop).fdp = x.fdp := rfl
@[simp] theorem Npx.pop_fop (x : Npx) : (x.pop).fop = x.fop := rfl
@[simp] theorem Npx.pop_reg (x : Npx) (j : Idx) : (x.pop).reg j = x.reg j := rfl

@[simp] theorem Npx.pop_sw (x : Npx) : x.pop.sw = x.sw.withTop (x.sw.top + 1) := rfl

/-! `note`. -/

@[simp] theorem Npx.note_cw {α : Type} (x : Npx) (n : Nat) (r : Result α) : (x.note n r).cw = x.cw := rfl
@[simp] theorem Npx.note_regs {α : Type} (x : Npx) (n : Nat) (r : Result α) : (x.note n r).regs = x.regs := rfl
@[simp] theorem Npx.note_tags {α : Type} (x : Npx) (n : Nat) (r : Result α) : (x.note n r).tags = x.tags := rfl
@[simp] theorem Npx.note_fip {α : Type} (x : Npx) (n : Nat) (r : Result α) : (x.note n r).fip = x.fip := rfl
@[simp] theorem Npx.note_fdp {α : Type} (x : Npx) (n : Nat) (r : Result α) : (x.note n r).fdp = x.fdp := rfl
@[simp] theorem Npx.note_fop {α : Type} (x : Npx) (n : Nat) (r : Result α) : (x.note n r).fop = x.fop := rfl
@[simp] theorem Npx.note_reg {α : Type} (x : Npx) (n : Nat) (r : Result α) (j : Idx) : (x.note n r).reg j = x.reg j := rfl
@[simp] theorem Npx.note_tag {α : Type} (x : Npx) (n : Nat) (r : Result α) (j : Idx) : (x.note n r).tag j = x.tag j := rfl

@[simp] theorem Npx.note_sw {α : Type} (x : Npx) (n : Nat) (r : Result α) :
    (x.note n r).sw = (x.sw.signal x.cw r.signals r.sf).applyC1 n r.c1 := rfl

/-! `undefCc`. -/

@[simp] theorem Npx.undefCc_cw (x : Npx) (n : Nat) : (x.undefCc n).cw = x.cw := rfl
@[simp] theorem Npx.undefCc_regs (x : Npx) (n : Nat) : (x.undefCc n).regs = x.regs := rfl
@[simp] theorem Npx.undefCc_tags (x : Npx) (n : Nat) : (x.undefCc n).tags = x.tags := rfl
@[simp] theorem Npx.undefCc_fip (x : Npx) (n : Nat) : (x.undefCc n).fip = x.fip := rfl
@[simp] theorem Npx.undefCc_fdp (x : Npx) (n : Nat) : (x.undefCc n).fdp = x.fdp := rfl
@[simp] theorem Npx.undefCc_fop (x : Npx) (n : Nat) : (x.undefCc n).fop = x.fop := rfl
@[simp] theorem Npx.undefCc_reg (x : Npx) (n : Nat) (j : Idx) : (x.undefCc n).reg j = x.reg j := rfl
@[simp] theorem Npx.undefCc_tag (x : Npx) (n : Nat) (j : Idx) : (x.undefCc n).tag j = x.tag j := rfl

@[simp] theorem Npx.undefCc_sw (x : Npx) (n : Nat) : (x.undefCc n).sw = x.sw.undefCc n := rfl

/-! `undefAll`. -/

@[simp] theorem Npx.undefAll_cw (x : Npx) (n : Nat) : (x.undefAll n).cw = x.cw := rfl
@[simp] theorem Npx.undefAll_regs (x : Npx) (n : Nat) : (x.undefAll n).regs = x.regs := rfl
@[simp] theorem Npx.undefAll_tags (x : Npx) (n : Nat) : (x.undefAll n).tags = x.tags := rfl
@[simp] theorem Npx.undefAll_fip (x : Npx) (n : Nat) : (x.undefAll n).fip = x.fip := rfl
@[simp] theorem Npx.undefAll_fdp (x : Npx) (n : Nat) : (x.undefAll n).fdp = x.fdp := rfl
@[simp] theorem Npx.undefAll_fop (x : Npx) (n : Nat) : (x.undefAll n).fop = x.fop := rfl
@[simp] theorem Npx.undefAll_reg (x : Npx) (n : Nat) (j : Idx) : (x.undefAll n).reg j = x.reg j := rfl
@[simp] theorem Npx.undefAll_tag (x : Npx) (n : Nat) (j : Idx) : (x.undefAll n).tag j = x.tag j := rfl

@[simp] theorem Npx.undefAll_sw (x : Npx) (n : Nat) : (x.undefAll n).sw = x.sw.undefAll n := rfl

/-! `StatusWord.withC1`. -/

@[simp] theorem StatusWord.withC1_ie (w : StatusWord) (v : Bool) : (w.withC1 v).ie = w.ie := rfl
@[simp] theorem StatusWord.withC1_de (w : StatusWord) (v : Bool) : (w.withC1 v).de = w.de := rfl
@[simp] theorem StatusWord.withC1_ze (w : StatusWord) (v : Bool) : (w.withC1 v).ze = w.ze := rfl
@[simp] theorem StatusWord.withC1_oe (w : StatusWord) (v : Bool) : (w.withC1 v).oe = w.oe := rfl
@[simp] theorem StatusWord.withC1_ue (w : StatusWord) (v : Bool) : (w.withC1 v).ue = w.ue := rfl
@[simp] theorem StatusWord.withC1_pe (w : StatusWord) (v : Bool) : (w.withC1 v).pe = w.pe := rfl
@[simp] theorem StatusWord.withC1_sf (w : StatusWord) (v : Bool) : (w.withC1 v).sf = w.sf := rfl
@[simp] theorem StatusWord.withC1_es (w : StatusWord) (v : Bool) : (w.withC1 v).es = w.es := rfl
@[simp] theorem StatusWord.withC1_c0 (w : StatusWord) (v : Bool) : (w.withC1 v).c0 = w.c0 := rfl
@[simp] theorem StatusWord.withC1_c1 (w : StatusWord) (v : Bool) :
    (w.withC1 v).c1 = v := rfl
@[simp] theorem StatusWord.withC1_c2 (w : StatusWord) (v : Bool) : (w.withC1 v).c2 = w.c2 := rfl
@[simp] theorem StatusWord.withC1_top (w : StatusWord) (v : Bool) : (w.withC1 v).top = w.top := rfl
@[simp] theorem StatusWord.withC1_c3 (w : StatusWord) (v : Bool) : (w.withC1 v).c3 = w.c3 := rfl
@[simp] theorem StatusWord.withC1_b (w : StatusWord) (v : Bool) : (w.withC1 v).b = w.b := rfl

/-! `StatusWord.withCc`. -/

@[simp] theorem StatusWord.withCc_ie (w : StatusWord) (p q r : Bool) : (w.withCc p q r).ie = w.ie := rfl
@[simp] theorem StatusWord.withCc_de (w : StatusWord) (p q r : Bool) : (w.withCc p q r).de = w.de := rfl
@[simp] theorem StatusWord.withCc_ze (w : StatusWord) (p q r : Bool) : (w.withCc p q r).ze = w.ze := rfl
@[simp] theorem StatusWord.withCc_oe (w : StatusWord) (p q r : Bool) : (w.withCc p q r).oe = w.oe := rfl
@[simp] theorem StatusWord.withCc_ue (w : StatusWord) (p q r : Bool) : (w.withCc p q r).ue = w.ue := rfl
@[simp] theorem StatusWord.withCc_pe (w : StatusWord) (p q r : Bool) : (w.withCc p q r).pe = w.pe := rfl
@[simp] theorem StatusWord.withCc_sf (w : StatusWord) (p q r : Bool) : (w.withCc p q r).sf = w.sf := rfl
@[simp] theorem StatusWord.withCc_es (w : StatusWord) (p q r : Bool) : (w.withCc p q r).es = w.es := rfl
@[simp] theorem StatusWord.withCc_c0 (w : StatusWord) (p q r : Bool) :
    (w.withCc p q r).c0 = r := rfl
@[simp] theorem StatusWord.withCc_c1 (w : StatusWord) (p q r : Bool) : (w.withCc p q r).c1 = w.c1 := rfl
@[simp] theorem StatusWord.withCc_c2 (w : StatusWord) (p q r : Bool) :
    (w.withCc p q r).c2 = q := rfl
@[simp] theorem StatusWord.withCc_top (w : StatusWord) (p q r : Bool) : (w.withCc p q r).top = w.top := rfl
@[simp] theorem StatusWord.withCc_c3 (w : StatusWord) (p q r : Bool) :
    (w.withCc p q r).c3 = p := rfl
@[simp] theorem StatusWord.withCc_b (w : StatusWord) (p q r : Bool) : (w.withCc p q r).b = w.b := rfl

/-! `StatusWord.withTop`. -/

@[simp] theorem StatusWord.withTop_ie (w : StatusWord) (t : BitVec 3) : (w.withTop t).ie = w.ie := rfl
@[simp] theorem StatusWord.withTop_de (w : StatusWord) (t : BitVec 3) : (w.withTop t).de = w.de := rfl
@[simp] theorem StatusWord.withTop_ze (w : StatusWord) (t : BitVec 3) : (w.withTop t).ze = w.ze := rfl
@[simp] theorem StatusWord.withTop_oe (w : StatusWord) (t : BitVec 3) : (w.withTop t).oe = w.oe := rfl
@[simp] theorem StatusWord.withTop_ue (w : StatusWord) (t : BitVec 3) : (w.withTop t).ue = w.ue := rfl
@[simp] theorem StatusWord.withTop_pe (w : StatusWord) (t : BitVec 3) : (w.withTop t).pe = w.pe := rfl
@[simp] theorem StatusWord.withTop_sf (w : StatusWord) (t : BitVec 3) : (w.withTop t).sf = w.sf := rfl
@[simp] theorem StatusWord.withTop_es (w : StatusWord) (t : BitVec 3) : (w.withTop t).es = w.es := rfl
@[simp] theorem StatusWord.withTop_c0 (w : StatusWord) (t : BitVec 3) : (w.withTop t).c0 = w.c0 := rfl
@[simp] theorem StatusWord.withTop_c1 (w : StatusWord) (t : BitVec 3) : (w.withTop t).c1 = w.c1 := rfl
@[simp] theorem StatusWord.withTop_c2 (w : StatusWord) (t : BitVec 3) : (w.withTop t).c2 = w.c2 := rfl
@[simp] theorem StatusWord.withTop_top (w : StatusWord) (t : BitVec 3) :
    (w.withTop t).top = t := rfl
@[simp] theorem StatusWord.withTop_c3 (w : StatusWord) (t : BitVec 3) : (w.withTop t).c3 = w.c3 := rfl
@[simp] theorem StatusWord.withTop_b (w : StatusWord) (t : BitVec 3) : (w.withTop t).b = w.b := rfl

/-! `StatusWord.undefCc`. -/

@[simp] theorem StatusWord.undefCc_ie (w : StatusWord) (n : Nat) : (w.undefCc n).ie = w.ie := rfl
@[simp] theorem StatusWord.undefCc_de (w : StatusWord) (n : Nat) : (w.undefCc n).de = w.de := rfl
@[simp] theorem StatusWord.undefCc_ze (w : StatusWord) (n : Nat) : (w.undefCc n).ze = w.ze := rfl
@[simp] theorem StatusWord.undefCc_oe (w : StatusWord) (n : Nat) : (w.undefCc n).oe = w.oe := rfl
@[simp] theorem StatusWord.undefCc_ue (w : StatusWord) (n : Nat) : (w.undefCc n).ue = w.ue := rfl
@[simp] theorem StatusWord.undefCc_pe (w : StatusWord) (n : Nat) : (w.undefCc n).pe = w.pe := rfl
@[simp] theorem StatusWord.undefCc_sf (w : StatusWord) (n : Nat) : (w.undefCc n).sf = w.sf := rfl
@[simp] theorem StatusWord.undefCc_es (w : StatusWord) (n : Nat) : (w.undefCc n).es = w.es := rfl
@[simp] theorem StatusWord.undefCc_c0 (w : StatusWord) (n : Nat) :
    (w.undefCc n).c0 = (drawnCc n).getLsbD 0 := rfl
@[simp] theorem StatusWord.undefCc_c1 (w : StatusWord) (n : Nat) : (w.undefCc n).c1 = w.c1 := rfl
@[simp] theorem StatusWord.undefCc_c2 (w : StatusWord) (n : Nat) :
    (w.undefCc n).c2 = (drawnCc n).getLsbD 1 := rfl
@[simp] theorem StatusWord.undefCc_top (w : StatusWord) (n : Nat) : (w.undefCc n).top = w.top := rfl
@[simp] theorem StatusWord.undefCc_c3 (w : StatusWord) (n : Nat) :
    (w.undefCc n).c3 = (drawnCc n).getLsbD 2 := rfl
@[simp] theorem StatusWord.undefCc_b (w : StatusWord) (n : Nat) : (w.undefCc n).b = w.b := rfl

/-! `StatusWord.undefAll`. -/

@[simp] theorem StatusWord.undefAll_ie (w : StatusWord) (n : Nat) : (w.undefAll n).ie = w.ie := rfl
@[simp] theorem StatusWord.undefAll_de (w : StatusWord) (n : Nat) : (w.undefAll n).de = w.de := rfl
@[simp] theorem StatusWord.undefAll_ze (w : StatusWord) (n : Nat) : (w.undefAll n).ze = w.ze := rfl
@[simp] theorem StatusWord.undefAll_oe (w : StatusWord) (n : Nat) : (w.undefAll n).oe = w.oe := rfl
@[simp] theorem StatusWord.undefAll_ue (w : StatusWord) (n : Nat) : (w.undefAll n).ue = w.ue := rfl
@[simp] theorem StatusWord.undefAll_pe (w : StatusWord) (n : Nat) : (w.undefAll n).pe = w.pe := rfl
@[simp] theorem StatusWord.undefAll_sf (w : StatusWord) (n : Nat) : (w.undefAll n).sf = w.sf := rfl
@[simp] theorem StatusWord.undefAll_es (w : StatusWord) (n : Nat) : (w.undefAll n).es = w.es := rfl
@[simp] theorem StatusWord.undefAll_c0 (w : StatusWord) (n : Nat) :
    (w.undefAll n).c0 = (drawnCc n).getLsbD 0 := rfl
@[simp] theorem StatusWord.undefAll_c1 (w : StatusWord) (n : Nat) :
    (w.undefAll n).c1 = drawnC1 n := rfl
@[simp] theorem StatusWord.undefAll_c2 (w : StatusWord) (n : Nat) :
    (w.undefAll n).c2 = (drawnCc n).getLsbD 1 := rfl
@[simp] theorem StatusWord.undefAll_top (w : StatusWord) (n : Nat) : (w.undefAll n).top = w.top := rfl
@[simp] theorem StatusWord.undefAll_c3 (w : StatusWord) (n : Nat) :
    (w.undefAll n).c3 = (drawnCc n).getLsbD 2 := rfl
@[simp] theorem StatusWord.undefAll_b (w : StatusWord) (n : Nat) : (w.undefAll n).b = w.b := rfl

/-! `StatusWord.signal`. -/

@[simp] theorem StatusWord.signal_ie (w : StatusWord) (cw : ControlWord) (g : Signals) (f : Bool) :
    (w.signal cw g f).ie = (w.ie || g.ie) := rfl
@[simp] theorem StatusWord.signal_de (w : StatusWord) (cw : ControlWord) (g : Signals) (f : Bool) :
    (w.signal cw g f).de = (w.de || g.de) := rfl
@[simp] theorem StatusWord.signal_ze (w : StatusWord) (cw : ControlWord) (g : Signals) (f : Bool) :
    (w.signal cw g f).ze = (w.ze || g.ze) := rfl
@[simp] theorem StatusWord.signal_oe (w : StatusWord) (cw : ControlWord) (g : Signals) (f : Bool) :
    (w.signal cw g f).oe = (w.oe || g.oe) := rfl
@[simp] theorem StatusWord.signal_ue (w : StatusWord) (cw : ControlWord) (g : Signals) (f : Bool) :
    (w.signal cw g f).ue = (w.ue || g.ue) := rfl
@[simp] theorem StatusWord.signal_pe (w : StatusWord) (cw : ControlWord) (g : Signals) (f : Bool) :
    (w.signal cw g f).pe = (w.pe || g.pe) := rfl
@[simp] theorem StatusWord.signal_sf (w : StatusWord) (cw : ControlWord) (g : Signals) (f : Bool) :
    (w.signal cw g f).sf = (w.sf || f) := rfl
@[simp] theorem StatusWord.signal_es (w : StatusWord) (cw : ControlWord) (g : Signals) (f : Bool) :
    (w.signal cw g f).es = (w.es || g.unmasked cw) := rfl
@[simp] theorem StatusWord.signal_c0 (w : StatusWord) (cw : ControlWord) (g : Signals) (f : Bool) : (w.signal cw g f).c0 = w.c0 := rfl
@[simp] theorem StatusWord.signal_c1 (w : StatusWord) (cw : ControlWord) (g : Signals) (f : Bool) : (w.signal cw g f).c1 = w.c1 := rfl
@[simp] theorem StatusWord.signal_c2 (w : StatusWord) (cw : ControlWord) (g : Signals) (f : Bool) : (w.signal cw g f).c2 = w.c2 := rfl
@[simp] theorem StatusWord.signal_top (w : StatusWord) (cw : ControlWord) (g : Signals) (f : Bool) : (w.signal cw g f).top = w.top := rfl
@[simp] theorem StatusWord.signal_c3 (w : StatusWord) (cw : ControlWord) (g : Signals) (f : Bool) : (w.signal cw g f).c3 = w.c3 := rfl
@[simp] theorem StatusWord.signal_b (w : StatusWord) (cw : ControlWord) (g : Signals) (f : Bool) :
    (w.signal cw g f).b = (w.b || g.unmasked cw) := rfl

/-! `StatusWord.refresh`. -/

@[simp] theorem StatusWord.refresh_ie (w : StatusWord) (cw : ControlWord) : (w.refresh cw).ie = w.ie := rfl
@[simp] theorem StatusWord.refresh_de (w : StatusWord) (cw : ControlWord) : (w.refresh cw).de = w.de := rfl
@[simp] theorem StatusWord.refresh_ze (w : StatusWord) (cw : ControlWord) : (w.refresh cw).ze = w.ze := rfl
@[simp] theorem StatusWord.refresh_oe (w : StatusWord) (cw : ControlWord) : (w.refresh cw).oe = w.oe := rfl
@[simp] theorem StatusWord.refresh_ue (w : StatusWord) (cw : ControlWord) : (w.refresh cw).ue = w.ue := rfl
@[simp] theorem StatusWord.refresh_pe (w : StatusWord) (cw : ControlWord) : (w.refresh cw).pe = w.pe := rfl
@[simp] theorem StatusWord.refresh_sf (w : StatusWord) (cw : ControlWord) : (w.refresh cw).sf = w.sf := rfl
@[simp] theorem StatusWord.refresh_es (w : StatusWord) (cw : ControlWord) :
    (w.refresh cw).es = unmaskedFlag cw w := rfl
@[simp] theorem StatusWord.refresh_c0 (w : StatusWord) (cw : ControlWord) : (w.refresh cw).c0 = w.c0 := rfl
@[simp] theorem StatusWord.refresh_c1 (w : StatusWord) (cw : ControlWord) : (w.refresh cw).c1 = w.c1 := rfl
@[simp] theorem StatusWord.refresh_c2 (w : StatusWord) (cw : ControlWord) : (w.refresh cw).c2 = w.c2 := rfl
@[simp] theorem StatusWord.refresh_top (w : StatusWord) (cw : ControlWord) : (w.refresh cw).top = w.top := rfl
@[simp] theorem StatusWord.refresh_c3 (w : StatusWord) (cw : ControlWord) : (w.refresh cw).c3 = w.c3 := rfl
@[simp] theorem StatusWord.refresh_b (w : StatusWord) (cw : ControlWord) :
    (w.refresh cw).b = unmaskedFlag cw w := rfl

/-! `StatusWord.applyC1`: only C1 changes. -/

@[simp] theorem StatusWord.applyC1_ie (w : StatusWord) (n : Nat) (e : C1Effect) : (w.applyC1 n e).ie = w.ie := by
  cases e <;> rfl
@[simp] theorem StatusWord.applyC1_de (w : StatusWord) (n : Nat) (e : C1Effect) : (w.applyC1 n e).de = w.de := by
  cases e <;> rfl
@[simp] theorem StatusWord.applyC1_ze (w : StatusWord) (n : Nat) (e : C1Effect) : (w.applyC1 n e).ze = w.ze := by
  cases e <;> rfl
@[simp] theorem StatusWord.applyC1_oe (w : StatusWord) (n : Nat) (e : C1Effect) : (w.applyC1 n e).oe = w.oe := by
  cases e <;> rfl
@[simp] theorem StatusWord.applyC1_ue (w : StatusWord) (n : Nat) (e : C1Effect) : (w.applyC1 n e).ue = w.ue := by
  cases e <;> rfl
@[simp] theorem StatusWord.applyC1_pe (w : StatusWord) (n : Nat) (e : C1Effect) : (w.applyC1 n e).pe = w.pe := by
  cases e <;> rfl
@[simp] theorem StatusWord.applyC1_sf (w : StatusWord) (n : Nat) (e : C1Effect) : (w.applyC1 n e).sf = w.sf := by
  cases e <;> rfl
@[simp] theorem StatusWord.applyC1_es (w : StatusWord) (n : Nat) (e : C1Effect) : (w.applyC1 n e).es = w.es := by
  cases e <;> rfl
@[simp] theorem StatusWord.applyC1_c0 (w : StatusWord) (n : Nat) (e : C1Effect) : (w.applyC1 n e).c0 = w.c0 := by
  cases e <;> rfl
@[simp] theorem StatusWord.applyC1_c2 (w : StatusWord) (n : Nat) (e : C1Effect) : (w.applyC1 n e).c2 = w.c2 := by
  cases e <;> rfl
@[simp] theorem StatusWord.applyC1_top (w : StatusWord) (n : Nat) (e : C1Effect) : (w.applyC1 n e).top = w.top := by
  cases e <;> rfl
@[simp] theorem StatusWord.applyC1_c3 (w : StatusWord) (n : Nat) (e : C1Effect) : (w.applyC1 n e).c3 = w.c3 := by
  cases e <;> rfl
@[simp] theorem StatusWord.applyC1_b (w : StatusWord) (n : Nat) (e : C1Effect) : (w.applyC1 n e).b = w.b := by
  cases e <;> rfl

@[simp] theorem StatusWord.applyC1_keep (w : StatusWord) (n : Nat) : w.applyC1 n .keep = w := rfl
@[simp] theorem StatusWord.applyC1_set (w : StatusWord) (n : Nat) (v : Bool) : w.applyC1 n (.set v) = w.withC1 v := rfl
@[simp] theorem StatusWord.applyC1_draw (w : StatusWord) (n : Nat) : w.applyC1 n .draw = w.withC1 (drawnC1 n) := rfl

/-! `State.raise` and `State.complete`. -/

@[simp] theorem State.raise_npx (s : State) (v : InterruptVector) : (s.raise v).npx = s.npx := rfl
@[simp] theorem State.raise_mem (s : State) (v : InterruptVector) : (s.raise v).mem = s.mem := rfl
@[simp] theorem State.raise_bus (s : State) (v : InterruptVector) : (s.raise v).bus = s.bus := rfl
@[simp] theorem State.raise_draws (s : State) (v : InterruptVector) : (s.raise v).draws = s.draws := rfl
@[simp] theorem State.raise_overrun (s : State) (v : InterruptVector) : (s.raise v).overrun = s.overrun := rfl
@[simp] theorem State.complete_mem (s : State) (i : Instr) (x : Npx) : (s.complete i x).mem = s.mem := rfl
@[simp] theorem State.complete_bus (s : State) (i : Instr) (x : Npx) : (s.complete i x).bus = s.bus := rfl
@[simp] theorem State.complete_overrun (s : State) (i : Instr) (x : Npx) : (s.complete i x).overrun = s.overrun := rfl
@[simp] theorem State.complete_npx (s : State) (i : Instr) (x : Npx) : (s.complete i x).npx = x := rfl
@[simp] theorem State.complete_draws (s : State) (i : Instr) (x : Npx) : (s.complete i x).draws = s.draws + 1 := rfl
@[simp] theorem State.complete_cpu (s : State) (i : Instr) (x : Npx) :
    (s.complete i x).cpu = { s.cpu with eip := s.cpu.eip + BitVec.ofNat 32 i.length } := rfl
@[simp] theorem State.raise_cpu (s : State) (v : InterruptVector) :
    (s.raise v).cpu = { s.cpu with interrupt := some { vector := v, sel := s.cpu.cs.sel, off := s.cpu.eip } } := rfl

/-! Reading after writing. -/

theorem vec8_get {α : Type} (f : Idx → α) (k : Idx) : (vec8 f)[k.toNat]'k.isLt = f k := by
  revert k f; intro f k; obtain ⟨⟨k, hk⟩⟩ := k
  match k, hk with
  | 0, _ | 1, _ | 2, _ | 3, _ | 4, _ | 5, _ | 6, _ | 7, _ => rfl

@[simp] theorem Npx.setRegRaw_reg (x : Npx) (k j : Idx) (v : Ext) :
    (x.setRegRaw k v).reg j = if k = j then v else x.reg j := by
  simp [Npx.reg, Npx.setRegRaw, Vector.getElem_set, BitVec.toNat_inj]

@[simp] theorem Npx.setTag_tag (x : Npx) (k j : Idx) (t : Tag) :
    (x.setTag k t).tag j = if k = j then t else x.tag j := by
  simp [Npx.tag, Npx.setTag, Vector.getElem_set, BitVec.toNat_inj]

@[simp] theorem Npx.setReg_reg (x : Npx) (k j : Idx) (v : Ext) :
    (x.setReg k v).reg j = if k = j then v else x.reg j := by simp [Npx.setReg]

@[simp] theorem Npx.setReg_tag (x : Npx) (k j : Idx) (v : Ext) :
    (x.setReg k v).tag j = if k = j then tagOf v else x.tag j := by simp [Npx.setReg]

@[simp] theorem Npx.push_reg (x : Npx) (j : Idx) (v : Ext) :
    (x.push v).reg j = if x.sw.top - 1 = j then v else x.reg j := by simp [Npx.push]

@[simp] theorem Npx.push_tag (x : Npx) (j : Idx) (v : Ext) :
    (x.push v).tag j = if x.sw.top - 1 = j then tagOf v else x.tag j := by simp [Npx.push]

@[simp] theorem Npx.pop_tag (x : Npx) (j : Idx) :
    x.pop.tag j = if x.sw.top = j then .empty else x.tag j := by simp [Npx.pop]

@[simp] theorem Npx.pops_zero (x : Npx) : Npx.pops 0 x = x := rfl
@[simp] theorem Npx.pops_succ (n : Nat) (x : Npx) : Npx.pops (n + 1) x = Npx.pops n x.pop := rfl

/-- Two NPX states with the same registers, read one by one, hold the same vector. -/
theorem Npx.regs_ext (x y : Npx) (h : ∀ k, x.reg k = y.reg k) : x.regs = y.regs := by
  apply Vector.ext; intro i hi
  have := h (BitVec.ofNat 3 i)
  have e : (BitVec.ofNat 3 i).toNat = i := by simp; omega
  simpa [Npx.reg, e] using this

/-- The same for tags. -/
theorem Npx.tags_ext (x y : Npx) (h : ∀ k, x.tag k = y.tag k) : x.tags = y.tags := by
  apply Vector.ext; intro i hi
  have := h (BitVec.ofNat 3 i)
  have e : (BitVec.ofNat 3 i).toNat = i := by simp; omega
  simpa [Npx.tag, e] using this

end Sys2Proof.Machine
end

