-- ==== Sys2Proof/Laws/Ops.lean ====
section
/-! SUPPORT. What each shared operation can do, said once: the skeleton of R176 forwards and backwards, the delivery of a
result, the effect of interrupt 9, and what a free result is not. -/

namespace Sys2Proof.Machine

/-! The host's checks. -/

/-- None of the three interrupts is due (R414). -/
theorem hostCheck_eq_none (i : Instr) (o : Option Operand) (s : State) :
    hostCheck i o s = none ↔
      s.cpu.em = false ∧ s.cpu.ts = false ∧ (s.npx.sw.es = false ∨ exemptFrom16 i = true) ∧
        (∀ a, o = some a → a.limitFault = false) := by
  unfold hostCheck
  cases s.cpu.em <;> cases s.cpu.ts <;> cases s.npx.sw.es <;> cases exemptFrom16 i <;> cases o <;> simp

/-- The instruction starts: no interrupt is due, and the operand's segment does not fail the access (R93, R414). -/
def Starts (i : Instr) (o : Option Operand) (s : State) : Prop :=
  hostCheck i o s = none ∧ o.any Operand.segmentFault = false

/-- An instruction starts exactly when none of the three interrupts is due and its operand's segment is present and holds
the first piece (R91, R93, R414). -/
theorem starts_iff (i : Instr) (o : Option Operand) (s : State) :
    Starts i o s ↔
      s.cpu.em = false ∧ s.cpu.ts = false ∧ (s.npx.sw.es = false ∨ exemptFrom16 i = true) ∧
        (∀ a, o = some a → a.seg.present = true ∧ a.firstInLimit = true) := by
  unfold Starts
  rw [hostCheck_eq_none]
  cases o with
  | none => simp
  | some a =>
    simp only [Operand.limitFault, Operand.segmentFault, Option.some.injEq, forall_eq', Option.any_some]
    cases a.seg.present <;> cases a.stack <;> cases a.firstInLimit <;> simp

theorem startEsc_of_starts {i : Instr} {o : Option Operand} {s : State} (rest : Npx → Outcome)
    (h : Starts i o s) : startEsc i o s rest = rest (s.started i o) := by simp [startEsc, h.1, h.2]

theorem startEsc_of_some {i : Instr} {o : Option Operand} {s : State} {v : InterruptVector} (rest : Npx → Outcome)
    (h : hostCheck i o s = some v) : startEsc i o s rest = .next (s.raise v) := by simp [startEsc, h]

/-- Everything `startEsc` can answer as a next state. -/
theorem startEsc_next {i : Instr} {o : Option Operand} {s t : State} {rest : Npx → Outcome}
    (h : startEsc i o s rest = .next t) :
    (∃ v, hostCheck i o s = some v ∧ t = s.raise v) ∨ (Starts i o s ∧ rest (s.started i o) = .next t) := by
  unfold startEsc at h
  split at h
  · rename_i v hv
    exact .inl ⟨v, hv, by injection h with h; exact h.symm⟩
  · rename_i hv
    split at h
    · cases h
    · rename_i hf; exact .inr ⟨⟨hv, by simpa using hf⟩, h⟩

/-- Everything `readOperand` can answer as a next state. -/
theorem readOperand_next {o : Operand} {s t : State} {rest : Nat → Outcome} (h : readOperand o s rest = .next t) :
    (s.cpu.transfer o false = .ok ∧ rest (s.mem.readAll o.addrs) = .next t) ∨
      (s.cpu.transfer o false = .overrun ∧ t = s.segmentOverrun []) := by
  unfold readOperand at h
  split at h
  · rename_i e; exact .inl ⟨e, h⟩
  · cases h
  · rename_i e; exact .inr ⟨e, by injection h with h; exact h.symm⟩
  · cases h

theorem readOperand_ok {o : Operand} {s : State} (rest : Nat → Outcome) (h : s.cpu.transfer o false = .ok) :
    readOperand o s rest = rest (s.mem.readAll o.addrs) := by simp [readOperand, h]

/-- Everything `writeOperand` can answer as a next state. -/
theorem writeOperand_next {o : Operand} {s t after : State} {v : Nat} (h : writeOperand o s v after = .next t) :
    (s.cpu.transfer o true = .ok ∧ t = { after with mem := s.mem.writeAll v o.addrs }) ∨
      (s.cpu.transfer o true = .overrun ∧ t = s.segmentOverrun (s.cpu.accessibleAddrs o true)) := by
  unfold writeOperand at h
  split at h
  · rename_i e; exact .inl ⟨e, by injection h with h; exact h.symm⟩
  · cases h
  · rename_i e; exact .inr ⟨e, by injection h with h; exact h.symm⟩
  · cases h

theorem writeOperand_ok {o : Operand} {s after : State} (v : Nat) (h : s.cpu.transfer o true = .ok) :
    writeOperand o s v after = .next { after with mem := s.mem.writeAll v o.addrs } := by simp [writeOperand, h]

/-- Everything `runStack` can answer as a next state. -/
theorem runStack_next {i : Instr} {s t : State} {f : Npx → Npx} (h : runStack i s f = .next t) :
    (∃ v, hostCheck i none s = some v ∧ t = s.raise v) ∨
      (Starts i none s ∧ t = s.complete i (f (s.started i none))) := by
  rcases startEsc_next h with h | ⟨h, e⟩
  · exact .inl h
  · exact .inr ⟨h, by injection e with e; exact e.symm⟩

theorem runStack_of_starts {i : Instr} {s : State} (f : Npx → Npx) (h : Starts i none s) :
    runStack i s f = .next (s.complete i (f (s.started i none))) := startEsc_of_starts _ h

/-- Everything `runLoad` can answer as a next state. -/
theorem runLoad_next {i : Instr} {m : MemOperand} {n : Nat} {s t : State} {f : Nat → Npx → Npx}
    (h : runLoad i m n s f = .next t) :
    let o := s.cpu.operand i.prefixes m n
    (∃ v, hostCheck i (some o) s = some v ∧ t = s.raise v) ∨
      (Starts i (some o) s ∧ s.cpu.transfer o false = .overrun ∧ t = s.segmentOverrun []) ∨
      (Starts i (some o) s ∧ s.cpu.transfer o false = .ok ∧
        t = s.complete i (f (s.mem.readAll o.addrs) (s.started i (some o)))) := by
  intro o
  simp only [runLoad] at h
  rcases startEsc_next h with h | ⟨h, e⟩
  · exact .inl h
  · rcases readOperand_next e with ⟨a, b⟩ | ⟨a, b⟩
    · exact .inr (.inr ⟨h, a, by injection b with b; exact b.symm⟩)
    · exact .inr (.inl ⟨h, a, b⟩)

theorem runLoad_of_ok {i : Instr} {m : MemOperand} {n : Nat} {s : State} (f : Nat → Npx → Npx)
    (h : Starts i (some (s.cpu.operand i.prefixes m n)) s)
    (a : s.cpu.transfer (s.cpu.operand i.prefixes m n) false = .ok) :
    runLoad i m n s f = .next (s.complete i
      (f (s.mem.readAll (s.cpu.operand i.prefixes m n).addrs) (s.started i (some (s.cpu.operand i.prefixes m n))))) := by
  rw [runLoad, startEsc_of_starts _ h, readOperand_ok _ a]

/-- Everything `runStore` can answer as a next state. -/
theorem runStore_next {i : Instr} {m : MemOperand} {n : Nat} {s t : State} {f : Npx → Option Nat × Npx}
    (h : runStore i m n s f = .next t) :
    let o := s.cpu.operand i.prefixes m n
    let r := f (s.started i (some o))
    (∃ v, hostCheck i (some o) s = some v ∧ t = s.raise v) ∨
      (Starts i (some o) s ∧ r.1 = none ∧ t = s.complete i r.2) ∨
      (∃ v, Starts i (some o) s ∧ r.1 = some v ∧ s.cpu.transfer o true = .overrun ∧
        t = s.segmentOverrun (s.cpu.accessibleAddrs o true)) ∨
      (∃ v, Starts i (some o) s ∧ r.1 = some v ∧ s.cpu.transfer o true = .ok ∧
        t = { s.complete i r.2 with mem := s.mem.writeAll v o.addrs }) := by
  intro o r
  simp only [runStore] at h
  rcases startEsc_next h with h | ⟨h, e⟩
  · exact .inl h
  · split at e
    · rename_i hn
      exact .inr (.inl ⟨h, hn, by injection e with e; exact e.symm⟩)
    · rename_i v hv
      rcases writeOperand_next e with ⟨a, b⟩ | ⟨a, b⟩
      · exact .inr (.inr (.inr ⟨v, h, hv, a, b⟩))
      · exact .inr (.inr (.inl ⟨v, h, hv, a, b⟩))

theorem runStore_of_ok {i : Instr} {m : MemOperand} {n : Nat} {s : State} {f : Npx → Option Nat × Npx} {v : Nat}
    (h : Starts i (some (s.cpu.operand i.prefixes m n)) s)
    (e : (f (s.started i (some (s.cpu.operand i.prefixes m n)))).1 = some v)
    (a : s.cpu.transfer (s.cpu.operand i.prefixes m n) true = .ok) :
    runStore i m n s f = .next
      { s.complete i (f (s.started i (some (s.cpu.operand i.prefixes m n)))).2 with
        mem := s.mem.writeAll v (s.cpu.operand i.prefixes m n).addrs } := by
  simp only [runStore]
  rw [startEsc_of_starts _ h]
  simp only [e]
  rw [writeOperand_ok _ a]

/-- An unmasked exception before the store: nothing is written to memory. -/
theorem runStore_of_none {i : Instr} {m : MemOperand} {n : Nat} {s : State} {f : Npx → Option Nat × Npx}
    (h : Starts i (some (s.cpu.operand i.prefixes m n)) s)
    (e : (f (s.started i (some (s.cpu.operand i.prefixes m n)))).1 = none) :
    runStore i m n s f = .next (s.complete i (f (s.started i (some (s.cpu.operand i.prefixes m n)))).2) := by
  simp only [runStore]
  rw [startEsc_of_starts _ h]
  simp only [e]

/-! The state as the instruction starts: only the pointers may change. -/

@[simp] theorem State.started_cw (s : State) (i : Instr) (o : Option Operand) : (s.started i o).cw = s.npx.cw := by
  unfold State.started; split <;> rfl
@[simp] theorem State.started_sw (s : State) (i : Instr) (o : Option Operand) : (s.started i o).sw = s.npx.sw := by
  unfold State.started; split <;> rfl
@[simp] theorem State.started_regs (s : State) (i : Instr) (o : Option Operand) : (s.started i o).regs = s.npx.regs := by
  unfold State.started; split <;> rfl
@[simp] theorem State.started_tags (s : State) (i : Instr) (o : Option Operand) : (s.started i o).tags = s.npx.tags := by
  unfold State.started; split <;> rfl
@[simp] theorem State.started_reg (s : State) (i : Instr) (o : Option Operand) (k : Idx) :
    (s.started i o).reg k = s.npx.reg k := by simp [Npx.reg]
@[simp] theorem State.started_tag (s : State) (i : Instr) (o : Option Operand) (k : Idx) :
    (s.started i o).tag k = s.npx.tag k := by simp [Npx.tag]
@[simp] theorem State.started_phys (s : State) (i : Instr) (o : Option Operand) (k : Idx) :
    (s.started i o).phys k = s.npx.phys k := by simp [Npx.phys]
@[simp] theorem State.started_st (s : State) (i : Instr) (o : Option Operand) (k : Idx) :
    (s.started i o).st k = s.npx.st k := by simp [Npx.st]
@[simp] theorem State.started_empty (s : State) (i : Instr) (o : Option Operand) (k : Idx) :
    (s.started i o).empty k = s.npx.empty k := by simp [Npx.empty]
@[simp] theorem State.started_full (s : State) (i : Instr) (o : Option Operand) : (s.started i o).full = s.npx.full := by
  simp [Npx.full]

/-! Pops. -/

@[simp] theorem Npx.pops_cw (n : Nat) (x : Npx) : (Npx.pops n x).cw = x.cw := by
  induction n generalizing x with
  | zero => rfl
  | succ n ih => rw [Npx.pops_succ, ih, Npx.pop_cw]
@[simp] theorem Npx.pops_regs (n : Nat) (x : Npx) : (Npx.pops n x).regs = x.regs := by
  induction n generalizing x with
  | zero => rfl
  | succ n ih => rw [Npx.pops_succ, ih, Npx.pop_regs]
@[simp] theorem Npx.pops_fip (n : Nat) (x : Npx) : (Npx.pops n x).fip = x.fip := by
  induction n generalizing x with
  | zero => rfl
  | succ n ih => rw [Npx.pops_succ, ih, Npx.pop_fip]
@[simp] theorem Npx.pops_fdp (n : Nat) (x : Npx) : (Npx.pops n x).fdp = x.fdp := by
  induction n generalizing x with
  | zero => rfl
  | succ n ih => rw [Npx.pops_succ, ih, Npx.pop_fdp]
@[simp] theorem Npx.pops_fop (n : Nat) (x : Npx) : (Npx.pops n x).fop = x.fop := by
  induction n generalizing x with
  | zero => rfl
  | succ n ih => rw [Npx.pops_succ, ih, Npx.pop_fop]
@[simp] theorem Npx.pops_reg (n : Nat) (x : Npx) (j : Idx) : (Npx.pops n x).reg j = x.reg j := by simp [Npx.reg]

/-- n pops touch the status word in TOP alone. -/
theorem Npx.pops_sw (n : Nat) (x : Npx) : (Npx.pops n x).sw = x.sw.withTop (x.sw.top + BitVec.ofNat 3 n) := by
  induction n generalizing x with
  | zero => simp [StatusWord.withTop]
  | succ n ih =>
    rw [Npx.pops_succ, ih, Npx.pop_sw]
    simp only [StatusWord.withTop, StatusWord.mk.injEq, true_and, and_true]
    rw [BitVec.add_assoc]
    congr 1
    rw [BitVec.add_comm, BitVec.ofNat_add]; rfl

/-! ES and the tags (R28, R152). -/

/-- Signalling keeps ES and B the OR of the unmasked flags. -/
theorem unmaskedFlag_signal (w : StatusWord) (cw : ControlWord) (g : Signals) (f : Bool) :
    unmaskedFlag cw (w.signal cw g f) = (unmaskedFlag cw w || g.unmasked cw) := by
  simp only [unmaskedFlag, Signals.unmasked, StatusWord.signal_ie, StatusWord.signal_de, StatusWord.signal_ze,
    StatusWord.signal_oe, StatusWord.signal_ue, StatusWord.signal_pe, Bool.and_or_distrib_right]
  cases w.ie && !cw.im <;> cases g.ie && !cw.im <;> cases w.de && !cw.dm <;> cases g.de && !cw.dm <;>
    cases w.ze && !cw.zm <;> cases g.ze && !cw.zm <;> cases w.oe && !cw.om <;> cases g.oe && !cw.om <;>
    cases w.ue && !cw.um <;> cases g.ue && !cw.um <;> simp

/-- ES depends on the six flags and the masks alone. -/
theorem unmaskedFlag_congr (cw : ControlWord) (w v : StatusWord)
    (h : w.ie = v.ie ∧ w.de = v.de ∧ w.ze = v.ze ∧ w.oe = v.oe ∧ w.ue = v.ue ∧ w.pe = v.pe) :
    unmaskedFlag cw w = unmaskedFlag cw v := by
  obtain ⟨a, b, c, d, e, f⟩ := h; simp [unmaskedFlag, a, b, c, d, e, f]

/-- The class of a pattern does not depend on its sign (R142). -/
theorem classOf_sign (b : Bool) (x : Ext) : classOf (BitVec.ofBool b ++ x.extractLsb' 0 79 : Ext) = classOf x := by
  have h1 : bexp (BitVec.ofBool b ++ x.extractLsb' 0 79 : Ext) = bexp x := by
    unfold bexp; congr 1
    apply BitVec.eq_of_getLsbD_eq; intro i hi
    simp only [BitVec.getLsbD_extractLsb', BitVec.getLsbD_append, hi, decide_true, Bool.true_and]
    rw [if_pos (by omega)]
    simp [show 64 + i < 79 by omega]
  have h2 : sig (BitVec.ofBool b ++ x.extractLsb' 0 79 : Ext) = sig x := by
    unfold sig; congr 1
    apply BitVec.eq_of_getLsbD_eq; intro i hi
    simp only [BitVec.getLsbD_extractLsb', BitVec.getLsbD_append, hi, decide_true, Bool.true_and]
    rw [if_pos (by omega)]
    simp [show i < 79 by omega]
  have h3 : (BitVec.ofBool b ++ x.extractLsb' 0 79 : Ext).getLsbD 62 = x.getLsbD 62 := by
    rw [BitVec.getLsbD_append, if_pos (by omega)]; simp
  unfold classOf
  rw [h1, h2, h3]

/-! Interrupt 9 (R413). -/

theorem overrun_mem_other (as : List Nat) (m : Memory) (n c : Nat) (h : c ∉ as) :
    (as.foldl (fun m a => m.write a (Config.draw 8 (.overrunByte a) n)) m).read c = m.read c := by
  induction as generalizing m with
  | nil => rfl
  | cons a as ih =>
    simp only [List.mem_cons, not_or] at h
    rw [List.foldl_cons, ih _ h.2, Memory.read_write_other _ _ _ _ h.1]

theorem overrun_mem_wf (as : List Nat) (m : Memory) (n : Nat) (ha : ∀ a ∈ as, a < 2 ^ 32) (h : m.wf = true) :
    (as.foldl (fun m a => m.write a (Config.draw 8 (.overrunByte a) n)) m).wf = true := by
  induction as generalizing m with
  | nil => exact h
  | cons a as ih =>
    exact ih _ (fun c hc => ha c (by simp [hc])) (Memory.write_wf _ _ _ (ha a (by simp)) h)

theorem Cpu.accessibleAddrs_subset (c : Cpu) (o : Operand) (w : Bool) : ∀ a ∈ c.accessibleAddrs o w, a ∈ o.addrs := by
  intro a h
  simp only [Cpu.accessibleAddrs, List.mem_map, List.mem_filter] at h
  obtain ⟨k, ⟨hk, _⟩, rfl⟩ := h
  exact List.mem_map.2 ⟨k, hk, rfl⟩

/-! Free results. -/

/-- The bits of the exponent field. -/
theorem testBit_bexp (x : Ext) (i : Nat) : (bexp x).testBit i = (decide (i < 15) && x.getLsbD (64 + i)) := by
  unfold bexp
  rw [BitVec.testBit_toNat, BitVec.getLsbD_extractLsb']

theorem bexp_quiet (x : Ext) : bexp (quiet x) = bexp x := by
  refine Nat.eq_of_testBit_eq fun i => ?_
  rw [testBit_bexp, testBit_bexp, quiet, show ((1 <<< 62 : Nat) : Ext) = BitVec.twoPow 80 62 by decide,
    BitVec.getLsbD_or, BitVec.getLsbD_twoPow, show decide (62 = 64 + i) = false by simp; omega]
  simp

/-- A pattern whose exponent field is 0 is a zero or a denormal (R142). -/
theorem classOf_of_bexp_zero {x : Ext} (h : bexp x = 0) :
    (classOf x = .zero ∧ sig x = 0) ∨ classOf x = .denormal := by
  unfold classOf; rw [if_pos h]; split <;> simp [*]

/-- No drawn result is a pseudo-denormal (R149). -/
theorem validPattern_no_pseudoDenormal (v : Ext) (h : bexp (validPattern v) = 0) : sig (validPattern v) < 2 ^ 63 := by
  have g (h : bexp v = 0) : sig v < 2 ^ 63 ∨ classOf v = .denormal :=
    (classOf_of_bexp_zero h).imp (fun q => by rw [q.2]; decide) id
  unfold validPattern at h ⊢
  split at h <;> rename_i c
  · exact absurd h (by decide)
  · rw [bexp_quiet] at h
    rcases classOf_of_bexp_zero h with q | q
    · rw [q.1] at c; cases c
    · rw [q] at c; cases c
  · split at h
    · have b := congrArg (Nat.testBit · 0) h
      simp only [testBit_bexp, show ((1 <<< 64 : Nat) : Ext) = BitVec.twoPow 80 64 by decide, BitVec.getLsbD_or,
        BitVec.getLsbD_twoPow] at b
      simp at b
    · have b : v.getLsbD 63 = false := Bool.eq_false_iff.mpr ‹_›
      rw [if_neg ‹_›]
      refine BitVec.toNat_lt_of_msb_false ?_
      rw [BitVec.msb_eq_getLsbD_last, BitVec.getLsbD_extractLsb']
      rw [show 0 + (64 - 1) = 63 from rfl, b]; rfl
  all_goals
    rcases g h with q | q
    · exact q
    · rw [q] at c; cases c

end Sys2Proof.Machine
end

