-- ==== Sys2Proof/Laws/PerInstr.lean ====
section
/-! SUPPORT. Statements made of each instruction by itself: its encoding is as long as the length that pc advances by. -/

namespace Sys2Proof.Laws

theorem disp32Bytes_length (d : Disp 32) : (disp32Bytes d).length = d.length := by cases d <;> rfl

theorem disp16Bytes_length (d : Disp 16) : (disp16Bytes d).length = d.length := by cases d <;> rfl

theorem encodeOperand_length (m : MemOperand) : (encodeOperand m).2.2.length = m.extra := by
  cases m <;> simp [encodeOperand, MemOperand.extra, disp32Bytes_length, disp16Bytes_length, dwordBytes, wordBytes]
  omega

/-- The bytes of a layout are as many as R104 and R106 count. -/
theorem layout_encode_length (l : Layout) : l.encode.length = l.length := by
  cases l <;> simp [Layout.encode, Layout.length, encodeOperand_length]
  omega

/-- The encoding of an instruction has the length that the program counter advances by (R24, R104). -/
def EncodedLength.Statement (i : Instr) : Prop := (encode i).length = i.length

theorem encodedLength_all (i : Instr) : EncodedLength.Statement i := layout_encode_length i.layout

namespace EncodedLength

theorem faddM32r (p : List PrefixByte) (m : MemOperand) : Statement (.faddM32r p m) := encodedLength_all _
theorem fmulM32r (p : List PrefixByte) (m : MemOperand) : Statement (.fmulM32r p m) := encodedLength_all _
theorem fcomM32r (p : List PrefixByte) (m : MemOperand) : Statement (.fcomM32r p m) := encodedLength_all _
theorem fcompM32r (p : List PrefixByte) (m : MemOperand) : Statement (.fcompM32r p m) := encodedLength_all _
theorem fsubM32r (p : List PrefixByte) (m : MemOperand) : Statement (.fsubM32r p m) := encodedLength_all _
theorem fsubrM32r (p : List PrefixByte) (m : MemOperand) : Statement (.fsubrM32r p m) := encodedLength_all _
theorem fdivM32r (p : List PrefixByte) (m : MemOperand) : Statement (.fdivM32r p m) := encodedLength_all _
theorem fdivrM32r (p : List PrefixByte) (m : MemOperand) : Statement (.fdivrM32r p m) := encodedLength_all _
theorem fiaddM32i (p : List PrefixByte) (m : MemOperand) : Statement (.fiaddM32i p m) := encodedLength_all _
theorem fimulM32i (p : List PrefixByte) (m : MemOperand) : Statement (.fimulM32i p m) := encodedLength_all _
theorem ficomM32i (p : List PrefixByte) (m : MemOperand) : Statement (.ficomM32i p m) := encodedLength_all _
theorem ficompM32i (p : List PrefixByte) (m : MemOperand) : Statement (.ficompM32i p m) := encodedLength_all _
theorem fisubM32i (p : List PrefixByte) (m : MemOperand) : Statement (.fisubM32i p m) := encodedLength_all _
theorem fisubrM32i (p : List PrefixByte) (m : MemOperand) : Statement (.fisubrM32i p m) := encodedLength_all _
theorem fidivM32i (p : List PrefixByte) (m : MemOperand) : Statement (.fidivM32i p m) := encodedLength_all _
theorem fidivrM32i (p : List PrefixByte) (m : MemOperand) : Statement (.fidivrM32i p m) := encodedLength_all _
theorem faddM64r (p : List PrefixByte) (m : MemOperand) : Statement (.faddM64r p m) := encodedLength_all _
theorem fmulM64r (p : List PrefixByte) (m : MemOperand) : Statement (.fmulM64r p m) := encodedLength_all _
theorem fcomM64r (p : List PrefixByte) (m : MemOperand) : Statement (.fcomM64r p m) := encodedLength_all _
theorem fcompM64r (p : List PrefixByte) (m : MemOperand) : Statement (.fcompM64r p m) := encodedLength_all _
theorem fsubM64r (p : List PrefixByte) (m : MemOperand) : Statement (.fsubM64r p m) := encodedLength_all _
theorem fsubrM64r (p : List PrefixByte) (m : MemOperand) : Statement (.fsubrM64r p m) := encodedLength_all _
theorem fdivM64r (p : List PrefixByte) (m : MemOperand) : Statement (.fdivM64r p m) := encodedLength_all _
theorem fdivrM64r (p : List PrefixByte) (m : MemOperand) : Statement (.fdivrM64r p m) := encodedLength_all _
theorem fiaddM16i (p : List PrefixByte) (m : MemOperand) : Statement (.fiaddM16i p m) := encodedLength_all _
theorem fimulM16i (p : List PrefixByte) (m : MemOperand) : Statement (.fimulM16i p m) := encodedLength_all _
theorem ficomM16i (p : List PrefixByte) (m : MemOperand) : Statement (.ficomM16i p m) := encodedLength_all _
theorem ficompM16i (p : List PrefixByte) (m : MemOperand) : Statement (.ficompM16i p m) := encodedLength_all _
theorem fisubM16i (p : List PrefixByte) (m : MemOperand) : Statement (.fisubM16i p m) := encodedLength_all _
theorem fisubrM16i (p : List PrefixByte) (m : MemOperand) : Statement (.fisubrM16i p m) := encodedLength_all _
theorem fidivM16i (p : List PrefixByte) (m : MemOperand) : Statement (.fidivM16i p m) := encodedLength_all _
theorem fidivrM16i (p : List PrefixByte) (m : MemOperand) : Statement (.fidivrM16i p m) := encodedLength_all _
theorem fldM32r (p : List PrefixByte) (m : MemOperand) : Statement (.fldM32r p m) := encodedLength_all _
theorem fstM32r (p : List PrefixByte) (m : MemOperand) : Statement (.fstM32r p m) := encodedLength_all _
theorem fstpM32r (p : List PrefixByte) (m : MemOperand) : Statement (.fstpM32r p m) := encodedLength_all _
theorem fldenv (p : List PrefixByte) (m : MemOperand) : Statement (.fldenv p m) := encodedLength_all _
theorem fldcw (p : List PrefixByte) (m : MemOperand) : Statement (.fldcw p m) := encodedLength_all _
theorem fstenv (p : List PrefixByte) (m : MemOperand) : Statement (.fstenv p m) := encodedLength_all _
theorem fstcw (p : List PrefixByte) (m : MemOperand) : Statement (.fstcw p m) := encodedLength_all _
theorem fildM32i (p : List PrefixByte) (m : MemOperand) : Statement (.fildM32i p m) := encodedLength_all _
theorem fistM32i (p : List PrefixByte) (m : MemOperand) : Statement (.fistM32i p m) := encodedLength_all _
theorem fistpM32i (p : List PrefixByte) (m : MemOperand) : Statement (.fistpM32i p m) := encodedLength_all _
theorem fldM80r (p : List PrefixByte) (m : MemOperand) : Statement (.fldM80r p m) := encodedLength_all _
theorem fstpM80r (p : List PrefixByte) (m : MemOperand) : Statement (.fstpM80r p m) := encodedLength_all _
theorem fldM64r (p : List PrefixByte) (m : MemOperand) : Statement (.fldM64r p m) := encodedLength_all _
theorem fstM64r (p : List PrefixByte) (m : MemOperand) : Statement (.fstM64r p m) := encodedLength_all _
theorem fstpM64r (p : List PrefixByte) (m : MemOperand) : Statement (.fstpM64r p m) := encodedLength_all _
theorem frstor (p : List PrefixByte) (m : MemOperand) : Statement (.frstor p m) := encodedLength_all _
theorem fsave (p : List PrefixByte) (m : MemOperand) : Statement (.fsave p m) := encodedLength_all _
theorem fstswM16 (p : List PrefixByte) (m : MemOperand) : Statement (.fstswM16 p m) := encodedLength_all _
theorem fildM16i (p : List PrefixByte) (m : MemOperand) : Statement (.fildM16i p m) := encodedLength_all _
theorem fistM16i (p : List PrefixByte) (m : MemOperand) : Statement (.fistM16i p m) := encodedLength_all _
theorem fistpM16i (p : List PrefixByte) (m : MemOperand) : Statement (.fistpM16i p m) := encodedLength_all _
theorem fbld (p : List PrefixByte) (m : MemOperand) : Statement (.fbld p m) := encodedLength_all _
theorem fildM64i (p : List PrefixByte) (m : MemOperand) : Statement (.fildM64i p m) := encodedLength_all _
theorem fbstp (p : List PrefixByte) (m : MemOperand) : Statement (.fbstp p m) := encodedLength_all _
theorem fistpM64i (p : List PrefixByte) (m : MemOperand) : Statement (.fistpM64i p m) := encodedLength_all _
theorem faddStSti (p : List PrefixByte) (i : Idx) : Statement (.faddStSti p i) := encodedLength_all _
theorem fmulStSti (p : List PrefixByte) (i : Idx) : Statement (.fmulStSti p i) := encodedLength_all _
theorem fcomSti (p : List PrefixByte) (i : Idx) : Statement (.fcomSti p i) := encodedLength_all _
theorem fcompSti (p : List PrefixByte) (i : Idx) : Statement (.fcompSti p i) := encodedLength_all _
theorem fsubStSti (p : List PrefixByte) (i : Idx) : Statement (.fsubStSti p i) := encodedLength_all _
theorem fsubrStSti (p : List PrefixByte) (i : Idx) : Statement (.fsubrStSti p i) := encodedLength_all _
theorem fdivStSti (p : List PrefixByte) (i : Idx) : Statement (.fdivStSti p i) := encodedLength_all _
theorem fdivrStSti (p : List PrefixByte) (i : Idx) : Statement (.fdivrStSti p i) := encodedLength_all _
theorem fldSti (p : List PrefixByte) (i : Idx) : Statement (.fldSti p i) := encodedLength_all _
theorem fxch (p : List PrefixByte) (i : Idx) : Statement (.fxch p i) := encodedLength_all _
theorem fnop (p : List PrefixByte) : Statement (.fnop p) := encodedLength_all _
theorem fchs (p : List PrefixByte) : Statement (.fchs p) := encodedLength_all _
theorem fabs (p : List PrefixByte) : Statement (.fabs p) := encodedLength_all _
theorem ftst (p : List PrefixByte) : Statement (.ftst p) := encodedLength_all _
theorem fxam (p : List PrefixByte) : Statement (.fxam p) := encodedLength_all _
theorem fld1 (p : List PrefixByte) : Statement (.fld1 p) := encodedLength_all _
theorem fldl2t (p : List PrefixByte) : Statement (.fldl2t p) := encodedLength_all _
theorem fldl2e (p : List PrefixByte) : Statement (.fldl2e p) := encodedLength_all _
theorem fldpi (p : List PrefixByte) : Statement (.fldpi p) := encodedLength_all _
theorem fldlg2 (p : List PrefixByte) : Statement (.fldlg2 p) := encodedLength_all _
theorem fldln2 (p : List PrefixByte) : Statement (.fldln2 p) := encodedLength_all _
theorem fldz (p : List PrefixByte) : Statement (.fldz p) := encodedLength_all _
theorem f2xm1 (p : List PrefixByte) : Statement (.f2xm1 p) := encodedLength_all _
theorem fyl2x (p : List PrefixByte) : Statement (.fyl2x p) := encodedLength_all _
theorem fptan (p : List PrefixByte) : Statement (.fptan p) := encodedLength_all _
theorem fpatan (p : List PrefixByte) : Statement (.fpatan p) := encodedLength_all _
theorem fxtract (p : List PrefixByte) : Statement (.fxtract p) := encodedLength_all _
theorem fprem1 (p : List PrefixByte) : Statement (.fprem1 p) := encodedLength_all _
theorem fdecstp (p : List PrefixByte) : Statement (.fdecstp p) := encodedLength_all _
theorem fincstp (p : List PrefixByte) : Statement (.fincstp p) := encodedLength_all _
theorem fprem (p : List PrefixByte) : Statement (.fprem p) := encodedLength_all _
theorem fyl2xp1 (p : List PrefixByte) : Statement (.fyl2xp1 p) := encodedLength_all _
theorem fsqrt (p : List PrefixByte) : Statement (.fsqrt p) := encodedLength_all _
theorem fsincos (p : List PrefixByte) : Statement (.fsincos p) := encodedLength_all _
theorem frndint (p : List PrefixByte) : Statement (.frndint p) := encodedLength_all _
theorem fscale (p : List PrefixByte) : Statement (.fscale p) := encodedLength_all _
theorem fsin (p : List PrefixByte) : Statement (.fsin p) := encodedLength_all _
theorem fcos (p : List PrefixByte) : Statement (.fcos p) := encodedLength_all _
theorem fucompp (p : List PrefixByte) : Statement (.fucompp p) := encodedLength_all _
theorem fclex (p : List PrefixByte) : Statement (.fclex p) := encodedLength_all _
theorem finit (p : List PrefixByte) : Statement (.finit p) := encodedLength_all _
theorem faddStiSt (p : List PrefixByte) (i : Idx) : Statement (.faddStiSt p i) := encodedLength_all _
theorem fmulStiSt (p : List PrefixByte) (i : Idx) : Statement (.fmulStiSt p i) := encodedLength_all _
theorem fsubrStiSt (p : List PrefixByte) (i : Idx) : Statement (.fsubrStiSt p i) := encodedLength_all _
theorem fsubStiSt (p : List PrefixByte) (i : Idx) : Statement (.fsubStiSt p i) := encodedLength_all _
theorem fdivrStiSt (p : List PrefixByte) (i : Idx) : Statement (.fdivrStiSt p i) := encodedLength_all _
theorem fdivStiSt (p : List PrefixByte) (i : Idx) : Statement (.fdivStiSt p i) := encodedLength_all _
theorem ffree (p : List PrefixByte) (i : Idx) : Statement (.ffree p i) := encodedLength_all _
theorem fstSti (p : List PrefixByte) (i : Idx) : Statement (.fstSti p i) := encodedLength_all _
theorem fstpSti (p : List PrefixByte) (i : Idx) : Statement (.fstpSti p i) := encodedLength_all _
theorem fucom (p : List PrefixByte) (i : Idx) : Statement (.fucom p i) := encodedLength_all _
theorem fucomp (p : List PrefixByte) (i : Idx) : Statement (.fucomp p i) := encodedLength_all _
theorem faddp (p : List PrefixByte) (i : Idx) : Statement (.faddp p i) := encodedLength_all _
theorem fmulp (p : List PrefixByte) (i : Idx) : Statement (.fmulp p i) := encodedLength_all _
theorem fcompp (p : List PrefixByte) : Statement (.fcompp p) := encodedLength_all _
theorem fsubrp (p : List PrefixByte) (i : Idx) : Statement (.fsubrp p i) := encodedLength_all _
theorem fsubp (p : List PrefixByte) (i : Idx) : Statement (.fsubp p i) := encodedLength_all _
theorem fdivrp (p : List PrefixByte) (i : Idx) : Statement (.fdivrp p i) := encodedLength_all _
theorem fdivp (p : List PrefixByte) (i : Idx) : Statement (.fdivp p i) := encodedLength_all _
theorem fstswAx (p : List PrefixByte) : Statement (.fstswAx p) := encodedLength_all _
theorem wait (p : List PrefixByte) : Statement (.wait p) := encodedLength_all _
theorem feni (p : List PrefixByte) : Statement (.feni p) := encodedLength_all _
theorem fdisi (p : List PrefixByte) : Statement (.fdisi p) := encodedLength_all _
theorem fsetpm (p : List PrefixByte) : Statement (.fsetpm p) := encodedLength_all _

end EncodedLength

end Sys2Proof.Laws
end

