-- ==== Sys2Proof/Machine/Timing.lean ====
section
/-! DEFINITION. The clock counts of spec/70_reset_and_hazards.md R485 with notes b to h of R483. Documentation: no step
reads them (R480, log 39). -/

namespace Sys2Proof.Machine

/-- The least and the greatest clock count of an instruction; none where the table has no row (WAIT, R485; the legacy
no-operations). The d and R notes are added in; for FMUL ST, ST(i) note e's range for d = 0 is taken. -/
def clockCount : Instr → Option (Nat × Nat)
  | .faddM32r _ _ => some (24, 32)
  | .fmulM32r _ _ => some (27, 35)
  | .fcomM32r _ _ => some (26, 26)
  | .fcompM32r _ _ => some (26, 26)
  | .fsubM32r _ _ => some (24, 32)
  | .fsubrM32r _ _ => some (25, 33)
  | .fdivM32r _ _ => some (89, 89)
  | .fdivrM32r _ _ => some (89, 89)
  | .fiaddM32i _ _ => some (57, 72)
  | .fimulM32i _ _ => some (61, 82)
  | .ficomM32i _ _ => some (56, 63)
  | .ficompM32i _ _ => some (56, 63)
  | .fisubM32i _ _ => some (57, 82)
  | .fisubrM32i _ _ => some (58, 83)
  | .fidivM32i _ _ => some (120, 127)
  | .fidivrM32i _ _ => some (121, 128)
  | .faddM64r _ _ => some (29, 37)
  | .fmulM64r _ _ => some (32, 57)
  | .fcomM64r _ _ => some (31, 31)
  | .fcompM64r _ _ => some (31, 31)
  | .fsubM64r _ _ => some (28, 36)
  | .fsubrM64r _ _ => some (29, 37)
  | .fdivM64r _ _ => some (94, 94)
  | .fdivrM64r _ _ => some (94, 94)
  | .fiaddM16i _ _ => some (71, 85)
  | .fimulM16i _ _ => some (76, 87)
  | .ficomM16i _ _ => some (71, 75)
  | .ficompM16i _ _ => some (71, 75)
  | .fisubM16i _ _ => some (71, 83)
  | .fisubrM16i _ _ => some (72, 84)
  | .fidivM16i _ _ => some (136, 140)
  | .fidivrM16i _ _ => some (135, 141)
  | .fldM32r _ _ => some (20, 20)
  | .fstM32r _ _ => some (44, 44)
  | .fstpM32r _ _ => some (44, 44)
  | .fldenv _ _ => some (71, 71)
  | .fldcw _ _ => some (19, 19)
  | .fstenv _ _ => some (103, 104)
  | .fstcw _ _ => some (15, 15)
  | .fildM32i _ _ => some (45, 52)
  | .fistM32i _ _ => some (79, 93)
  | .fistpM32i _ _ => some (79, 93)
  | .fldM80r _ _ => some (44, 44)
  | .fstpM80r _ _ => some (53, 53)
  | .fldM64r _ _ => some (25, 25)
  | .fstM64r _ _ => some (45, 45)
  | .fstpM64r _ _ => some (45, 45)
  | .frstor _ _ => some (308, 308)
  | .fsave _ _ => some (375, 376)
  | .fstswM16 _ _ => some (15, 15)
  | .fildM16i _ _ => some (61, 65)
  | .fistM16i _ _ => some (82, 95)
  | .fistpM16i _ _ => some (82, 95)
  | .fbld _ _ => some (266, 275)
  | .fildM64i _ _ => some (56, 67)
  | .fbstp _ _ => some (512, 534)
  | .fistpM64i _ _ => some (80, 97)
  | .faddStSti _ _ => some (23, 31)
  | .fmulStSti _ _ => some (46, 54)
  | .fcomSti _ _ => some (24, 24)
  | .fcompSti _ _ => some (26, 26)
  | .fsubStSti _ _ => some (29, 37)
  | .fsubrStSti _ _ => some (29, 37)
  | .fdivStSti _ _ => some (88, 88)
  | .fdivrStSti _ _ => some (88, 88)
  | .fldSti _ _ => some (14, 14)
  | .fxch _ _ => some (18, 18)
  | .fnop _ => some (12, 12)
  | .fchs _ => some (24, 25)
  | .fabs _ => some (22, 22)
  | .ftst _ => some (28, 28)
  | .fxam _ => some (30, 38)
  | .fld1 _ => some (24, 24)
  | .fldl2t _ => some (40, 40)
  | .fldl2e _ => some (40, 40)
  | .fldpi _ => some (40, 40)
  | .fldlg2 _ => some (41, 41)
  | .fldln2 _ => some (41, 41)
  | .fldz _ => some (20, 20)
  | .f2xm1 _ => some (211, 476)
  | .fyl2x _ => some (120, 538)
  | .fptan _ => some (191, 497)
  | .fpatan _ => some (314, 487)
  | .fxtract _ => some (70, 76)
  | .fprem1 _ => some (95, 185)
  | .fdecstp _ => some (22, 22)
  | .fincstp _ => some (21, 21)
  | .fprem _ => some (74, 155)
  | .fyl2xp1 _ => some (257, 547)
  | .fsqrt _ => some (122, 129)
  | .fsincos _ => some (194, 809)
  | .frndint _ => some (66, 80)
  | .fscale _ => some (67, 86)
  | .fsin _ => some (122, 771)
  | .fcos _ => some (123, 772)
  | .fucompp _ => some (26, 26)
  | .fclex _ => some (11, 11)
  | .finit _ => some (33, 33)
  | .faddStiSt _ _ => some (26, 34)
  | .fmulStiSt _ _ => some (29, 57)
  | .fsubrStiSt _ _ => some (26, 34)
  | .fsubStiSt _ _ => some (26, 34)
  | .fdivrStiSt _ _ => some (91, 91)
  | .fdivStiSt _ _ => some (91, 91)
  | .ffree _ _ => some (18, 18)
  | .fstSti _ _ => some (11, 11)
  | .fstpSti _ _ => some (12, 12)
  | .fucom _ _ => some (24, 24)
  | .fucomp _ _ => some (26, 26)
  | .faddp _ _ => some (26, 34)
  | .fmulp _ _ => some (29, 57)
  | .fcompp _ => some (26, 26)
  | .fsubrp _ _ => some (26, 34)
  | .fsubp _ _ => some (26, 34)
  | .fdivrp _ _ => some (91, 91)
  | .fdivp _ _ => some (91, 91)
  | .fstswAx _ => some (13, 13)
  | .wait _ => none
  | .feni _ => none
  | .fdisi _ => none
  | .fsetpm _ => none

/-- The clock added when the operand has a base and an index register (R480). -/
def addressClocks : MemOperand → Nat
  | .sib _ index _ _ => if index = none then 0 else 1
  | .base16 b _ => if b = .bxsi ∨ b = .bxdi ∨ b = .bpsi ∨ b = .bpdi then 1 else 0
  | .disp32 _ => 0
  | .base32 _ _ => 0
  | .sibNoBase _ _ _ => 0
  | .disp16 _ => 0

/-- Note a: the clocks added when a single or double zero is loaded from memory (R483). -/
def zeroLoadClocks : Nat := 5

end Sys2Proof.Machine
end

