-- ==== Sys2Proof/Tests/Slice0.lean ====
section
/-! SUPPORT. Tests: what WellFormed refuses, every constructor's decoding from a word written out from the spec's maps,
single steps with the results spec/95_test_vectors.md gives, and for every obligation with hypotheses a state and operands
that meet them. -/

namespace Sys2Proof.Tests

open Sys2Proof.Machine

set_option Elab.async false

/-! Small states. S0 is the state FNINIT leaves (spec/95_test_vectors.md section 0). -/

/-- S0 with the given ST(0), ST(1), … pushed, over the host of State.reset (real mode, 16-bit sizes). -/
def s0 (l : List Ext) : State :=
  let top : Idx := BitVec.ofNat 3 (8 - l.length)
  let at' : Idx → Ext := fun k => l.getD (k - top : Idx).toNat 0
  { State.reset with npx := { Npx.reset with
      cw := ControlWord.ofBits 0x037F, sw := { StatusWord.ofBits 0 with top := top },
      regs := vec8 at',
      tags := vec8 fun k => if (k - top : Idx).toNat < l.length then tagOf (at' k) else .empty } }

/-- With the control word. -/
def cw (w : BitVec 16) (s : State) : State := { s with npx := { s.npx with cw := ControlWord.ofBits w } }

/-- With n bytes at DS:0100h. -/
def mem (n v : Nat) (s : State) : State := { s with mem := s.mem.writeAll v ((List.range n).map (0x100 + ·)) }

/-- With the limit of DS. -/
def dsLimit (l : DWord) (s : State) : State := { s with cpu := { s.cpu with ds := { s.cpu.ds with limit := l } } }

/-- With the limit of SS. -/
def ssLimit (l : DWord) (s : State) : State := { s with cpu := { s.cpu with ss := { s.cpu.ss with limit := l } } }

/-- With DS marked present and writable or not. -/
def dsMarks (present writable : Bool) (s : State) : State :=
  { s with cpu := { s.cpu with ds := { s.cpu.ds with present := present, writable := writable } } }

/-- With one linear address in a device region, or not accessible. -/
def device (a : Nat) (s : State) : State :=
  { s with cpu := { s.cpu with blocked := [{ lo := a, hi := a, noRead := false, noWrite := false, device := true }] } }
def hole (a : Nat) (s : State) : State :=
  { s with cpu := { s.cpu with blocked := [{ lo := a, hi := a, noRead := true, noWrite := true, device := false }] } }

/-- With CR0.EM and CR0.TS. -/
def cr0 (em ts : Bool) (s : State) : State := { s with cpu := { s.cpu with em := em, ts := ts } }

/-- In protected mode. -/
def prot (s : State) : State := { s with cpu := { s.cpu with mode := .protectedMode } }

/-- The operand DS:0100h. -/
def m100 : MemOperand := .disp16 0x100

/-- 1.0, 2.0, 3.0, 4.0, -1.0, 0.5. -/
def one : Ext := 0x3FFF8000000000000000
def two : Ext := 0x40008000000000000000
def three : Ext := 0x4000C000000000000000
def four : Ext := 0x40018000000000000000
def minusOne : Ext := 0xBFFF8000000000000000
def half : Ext := 0x3FFE8000000000000000
/-- Plus and minus infinity, the real indefinite. -/
def inf : Ext := 0x7FFF8000000000000000
def minusInf : Ext := 0xFFFF8000000000000000
def qnan : Ext := 0xFFFFC000000000000000
/-- 2^16383, 2^-16382, 2^63, 2^100. -/
def huge : Ext := 0x7FFE8000000000000000
def tiny : Ext := 0x00018000000000000000
def two63 : Ext := 0x403E8000000000000000
def two100 : Ext := 0x40638000000000000000

/-- What holds of the next state of an instruction, if it has one. -/
def gives (i : Instr) (s : State) (p : State → Bool) : Bool :=
  match exec i s with
  | .next t => p t
  | .fault _ => false
  | .refused _ => false

/-- All eight registers hold v. -/
def fullOf (v : Ext) : State := s0 [v, v, v, v, v, v, v, v]

/-! WellFormed: one ill-formed term for each check of R112 and the length (log 22), refused. -/

theorem test_wellFormed_length : (Instr.fld1 (List.replicate 14 .opSize)).wellFormed true = false := by decide
theorem test_wellFormed_wait_length : (Instr.wait (List.replicate 15 .opSize)).wellFormed true = false := by decide
theorem test_wellFormed_disp32 : (Instr.fldM32r [] (.disp32 0)).wellFormed false = false := by decide
theorem test_wellFormed_disp16 : (Instr.fldM32r [] (.disp16 0)).wellFormed true = false := by decide
theorem test_wellFormed_base32_size : (Instr.fldM32r [] (.base32 .eax .none)).wellFormed false = false := by decide
theorem test_wellFormed_base32_esp : (Instr.fldM32r [] (.base32 .esp .none)).wellFormed true = false := by decide
theorem test_wellFormed_base32_ebp : (Instr.fldM32r [] (.base32 .ebp .none)).wellFormed true = false := by decide
theorem test_wellFormed_sib_size : (Instr.fldM32r [] (.sib 0 none .eax .none)).wellFormed false = false := by decide
theorem test_wellFormed_sib_index : (Instr.fldM32r [] (.sib 0 (some .esp) .eax .none)).wellFormed true = false := by decide
theorem test_wellFormed_sib_base : (Instr.fldM32r [] (.sib 0 none .ebp .none)).wellFormed true = false := by decide
theorem test_wellFormed_sibNoBase_size : (Instr.fldM32r [] (.sibNoBase 0 none 0)).wellFormed false = false := by decide
theorem test_wellFormed_sibNoBase_index :
    (Instr.fldM32r [] (.sibNoBase 0 (some .esp) 0)).wellFormed true = false := by decide
theorem test_wellFormed_base16_size : (Instr.fldM32r [] (.base16 .bx .none)).wellFormed true = false := by decide
theorem test_wellFormed_base16_bp : (Instr.fldM32r [] (.base16 .bp .none)).wellFormed false = false := by decide
/-- The address-size byte toggles the form (R104, R105). -/
theorem test_wellFormed_adSize : (Instr.fldM32r [.adSize] (.disp32 0)).wellFormed false = true := by decide

/-! Decoding: every constructor, from a word of the maps R108, R109. -/

/-- The bytes decode to the instruction, none left over. -/
def reads (a32 : Bool) (bs : List Byte) (i : Instr) : Bool :=
  match decode a32 bs with
  | .ok (j, rest) => j == i && rest.isEmpty
  | .error _ => false

/-- Row D8 memory, each word from the spec's table (R108, R112). -/
theorem test_decode_d8_memory :
    ([([0xD8, 0x05, 0x44, 0x33, 0x22, 0x11], .faddM32r [] (.disp32 0x11223344)),
      ([0xD8, 0x0B], .fmulM32r [] (.base32 .ebx .none)),
      ([0xD8, 0x55, 0x80], .fcomM32r [] (.base32 .ebp (.d8 0x80))),
      ([0xD8, 0x99, 0x04, 0x03, 0x02, 0x01], .fcompM32r [] (.base32 .ecx (.full 0x01020304))),
      ([0xD8, 0x24, 0x98], .fsubM32r [] (.sib 2 (some .ebx) .eax .none)),
      ([0xD8, 0x6C, 0x24, 0x08], .fsubrM32r [] (.sib 0 none .esp (.d8 0x08))),
      ([0xD8, 0x34, 0xFD, 0x10, 0x00, 0x00, 0x00], .fdivM32r [] (.sibNoBase 3 (some .edi) 0x10)),
      ([0xD8, 0x3D, 0x44, 0x33, 0x22, 0x11], .fdivrM32r [] (.disp32 0x11223344))] :
      List (List Byte × Instr)).all (fun q => reads true q.1 q.2) = true := by decide

/-- Row D8 register, each word from the spec's table (R109). -/
theorem test_decode_d8_register :
    ([([0xD8, 0xC3], .faddStSti [] 3),
      ([0xD8, 0xCC], .fmulStSti [] 4),
      ([0xD8, 0xD5], .fcomSti [] 5),
      ([0xD8, 0xDE], .fcompSti [] 6),
      ([0xD8, 0xE7], .fsubStSti [] 7),
      ([0xD8, 0xE9], .fsubrStSti [] 1),
      ([0xD8, 0xF2], .fdivStSti [] 2),
      ([0xD8, 0xFB], .fdivrStSti [] 3)] :
      List (List Byte × Instr)).all (fun q => reads true q.1 q.2) = true := by decide

/-- Row D9 memory, each word from the spec's table (R108, R112). -/
theorem test_decode_d9_memory :
    ([([0xD9, 0x04, 0x98], .fldM32r [] (.sib 2 (some .ebx) .eax .none)),
      ([0xD9, 0x54, 0x24, 0x08], .fstM32r [] (.sib 0 none .esp (.d8 0x08))),
      ([0xD9, 0x1C, 0xFD, 0x10, 0x00, 0x00, 0x00], .fstpM32r [] (.sibNoBase 3 (some .edi) 0x10)),
      ([0xD9, 0x25, 0x44, 0x33, 0x22, 0x11], .fldenv [] (.disp32 0x11223344)),
      ([0xD9, 0x2B], .fldcw [] (.base32 .ebx .none)),
      ([0xD9, 0x75, 0x80], .fstenv [] (.base32 .ebp (.d8 0x80))),
      ([0xD9, 0xB9, 0x04, 0x03, 0x02, 0x01], .fstcw [] (.base32 .ecx (.full 0x01020304)))] :
      List (List Byte × Instr)).all (fun q => reads true q.1 q.2) = true := by decide

/-- Row D9 register, each word from the spec's table (R109). -/
theorem test_decode_d9_register :
    ([([0xD9, 0xC4], .fldSti [] 4),
      ([0xD9, 0xCD], .fxch [] 5),
      ([0xD9, 0xD0], .fnop []),
      ([0xD9, 0xE0], .fchs []),
      ([0xD9, 0xE1], .fabs []),
      ([0xD9, 0xE4], .ftst []),
      ([0xD9, 0xE5], .fxam []),
      ([0xD9, 0xE8], .fld1 []),
      ([0xD9, 0xE9], .fldl2t []),
      ([0xD9, 0xEA], .fldl2e []),
      ([0xD9, 0xEB], .fldpi []),
      ([0xD9, 0xEC], .fldlg2 []),
      ([0xD9, 0xED], .fldln2 []),
      ([0xD9, 0xEE], .fldz []),
      ([0xD9, 0xF0], .f2xm1 []),
      ([0xD9, 0xF1], .fyl2x []),
      ([0xD9, 0xF2], .fptan []),
      ([0xD9, 0xF3], .fpatan []),
      ([0xD9, 0xF4], .fxtract []),
      ([0xD9, 0xF5], .fprem1 []),
      ([0xD9, 0xF6], .fdecstp []),
      ([0xD9, 0xF7], .fincstp []),
      ([0xD9, 0xF8], .fprem []),
      ([0xD9, 0xF9], .fyl2xp1 []),
      ([0xD9, 0xFA], .fsqrt []),
      ([0xD9, 0xFB], .fsincos []),
      ([0xD9, 0xFC], .frndint []),
      ([0xD9, 0xFD], .fscale []),
      ([0xD9, 0xFE], .fsin []),
      ([0xD9, 0xFF], .fcos [])] :
      List (List Byte × Instr)).all (fun q => reads true q.1 q.2) = true := by decide

/-- Row DA memory, each word from the spec's table (R108, R112). -/
theorem test_decode_da_memory :
    ([([0xDA, 0x03], .fiaddM32i [] (.base32 .ebx .none)),
      ([0xDA, 0x4D, 0x80], .fimulM32i [] (.base32 .ebp (.d8 0x80))),
      ([0xDA, 0x91, 0x04, 0x03, 0x02, 0x01], .ficomM32i [] (.base32 .ecx (.full 0x01020304))),
      ([0xDA, 0x1C, 0x98], .ficompM32i [] (.sib 2 (some .ebx) .eax .none)),
      ([0xDA, 0x64, 0x24, 0x08], .fisubM32i [] (.sib 0 none .esp (.d8 0x08))),
      ([0xDA, 0x2C, 0xFD, 0x10, 0x00, 0x00, 0x00], .fisubrM32i [] (.sibNoBase 3 (some .edi) 0x10)),
      ([0xDA, 0x35, 0x44, 0x33, 0x22, 0x11], .fidivM32i [] (.disp32 0x11223344)),
      ([0xDA, 0x3B], .fidivrM32i [] (.base32 .ebx .none))] :
      List (List Byte × Instr)).all (fun q => reads true q.1 q.2) = true := by decide

/-- Row DA register, each word from the spec's table (R109). -/
theorem test_decode_da_register :
    ([([0xDA, 0xE9], .fucompp [])] :
      List (List Byte × Instr)).all (fun q => reads true q.1 q.2) = true := by decide

/-- Row DB memory, each word from the spec's table (R108, R112). -/
theorem test_decode_db_memory :
    ([([0xDB, 0x04, 0x98], .fildM32i [] (.sib 2 (some .ebx) .eax .none)),
      ([0xDB, 0x54, 0x24, 0x08], .fistM32i [] (.sib 0 none .esp (.d8 0x08))),
      ([0xDB, 0x1C, 0xFD, 0x10, 0x00, 0x00, 0x00], .fistpM32i [] (.sibNoBase 3 (some .edi) 0x10)),
      ([0xDB, 0x2D, 0x44, 0x33, 0x22, 0x11], .fldM80r [] (.disp32 0x11223344)),
      ([0xDB, 0x3B], .fstpM80r [] (.base32 .ebx .none))] :
      List (List Byte × Instr)).all (fun q => reads true q.1 q.2) = true := by decide

/-- Row DB register, each word from the spec's table (R109). -/
theorem test_decode_db_register :
    ([([0xDB, 0xE2], .fclex []),
      ([0xDB, 0xE3], .finit []),
      ([0xDB, 0xE0], .feni []),
      ([0xDB, 0xE1], .fdisi []),
      ([0xDB, 0xE4], .fsetpm [])] :
      List (List Byte × Instr)).all (fun q => reads true q.1 q.2) = true := by decide

/-- Row DC memory, each word from the spec's table (R108, R112). -/
theorem test_decode_dc_memory :
    ([([0xDC, 0x45, 0x80], .faddM64r [] (.base32 .ebp (.d8 0x80))),
      ([0xDC, 0x89, 0x04, 0x03, 0x02, 0x01], .fmulM64r [] (.base32 .ecx (.full 0x01020304))),
      ([0xDC, 0x14, 0x98], .fcomM64r [] (.sib 2 (some .ebx) .eax .none)),
      ([0xDC, 0x5C, 0x24, 0x08], .fcompM64r [] (.sib 0 none .esp (.d8 0x08))),
      ([0xDC, 0x24, 0xFD, 0x10, 0x00, 0x00, 0x00], .fsubM64r [] (.sibNoBase 3 (some .edi) 0x10)),
      ([0xDC, 0x2D, 0x44, 0x33, 0x22, 0x11], .fsubrM64r [] (.disp32 0x11223344)),
      ([0xDC, 0x33], .fdivM64r [] (.base32 .ebx .none)),
      ([0xDC, 0x7D, 0x80], .fdivrM64r [] (.base32 .ebp (.d8 0x80)))] :
      List (List Byte × Instr)).all (fun q => reads true q.1 q.2) = true := by decide

/-- Row DC register, each word from the spec's table (R109). -/
theorem test_decode_dc_register :
    ([([0xDC, 0xC7], .faddStiSt [] 7),
      ([0xDC, 0xC9], .fmulStiSt [] 1),
      ([0xDC, 0xE4], .fsubrStiSt [] 4),
      ([0xDC, 0xED], .fsubStiSt [] 5),
      ([0xDC, 0xF6], .fdivrStiSt [] 6),
      ([0xDC, 0xFF], .fdivStiSt [] 7)] :
      List (List Byte × Instr)).all (fun q => reads true q.1 q.2) = true := by decide

/-- Row DD memory, each word from the spec's table (R108, R112). -/
theorem test_decode_dd_memory :
    ([([0xDD, 0x45, 0x80], .fldM64r [] (.base32 .ebp (.d8 0x80))),
      ([0xDD, 0x91, 0x04, 0x03, 0x02, 0x01], .fstM64r [] (.base32 .ecx (.full 0x01020304))),
      ([0xDD, 0x1C, 0x98], .fstpM64r [] (.sib 2 (some .ebx) .eax .none)),
      ([0xDD, 0x64, 0x24, 0x08], .frstor [] (.sib 0 none .esp (.d8 0x08))),
      ([0xDD, 0x34, 0xFD, 0x10, 0x00, 0x00, 0x00], .fsave [] (.sibNoBase 3 (some .edi) 0x10)),
      ([0xDD, 0x3D, 0x44, 0x33, 0x22, 0x11], .fstswM16 [] (.disp32 0x11223344))] :
      List (List Byte × Instr)).all (fun q => reads true q.1 q.2) = true := by decide

/-- Row DD register, each word from the spec's table (R109). -/
theorem test_decode_dd_register :
    ([([0xDD, 0xC1], .ffree [] 1),
      ([0xDD, 0xD3], .fstSti [] 3),
      ([0xDD, 0xDC], .fstpSti [] 4),
      ([0xDD, 0xE5], .fucom [] 5),
      ([0xDD, 0xEE], .fucomp [] 6)] :
      List (List Byte × Instr)).all (fun q => reads true q.1 q.2) = true := by decide

/-- Row DE memory, each word from the spec's table (R108, R112). -/
theorem test_decode_de_memory :
    ([([0xDE, 0x81, 0x04, 0x03, 0x02, 0x01], .fiaddM16i [] (.base32 .ecx (.full 0x01020304))),
      ([0xDE, 0x0C, 0x98], .fimulM16i [] (.sib 2 (some .ebx) .eax .none)),
      ([0xDE, 0x54, 0x24, 0x08], .ficomM16i [] (.sib 0 none .esp (.d8 0x08))),
      ([0xDE, 0x1C, 0xFD, 0x10, 0x00, 0x00, 0x00], .ficompM16i [] (.sibNoBase 3 (some .edi) 0x10)),
      ([0xDE, 0x25, 0x44, 0x33, 0x22, 0x11], .fisubM16i [] (.disp32 0x11223344)),
      ([0xDE, 0x2B], .fisubrM16i [] (.base32 .ebx .none)),
      ([0xDE, 0x75, 0x80], .fidivM16i [] (.base32 .ebp (.d8 0x80))),
      ([0xDE, 0xB9, 0x04, 0x03, 0x02, 0x01], .fidivrM16i [] (.base32 .ecx (.full 0x01020304)))] :
      List (List Byte × Instr)).all (fun q => reads true q.1 q.2) = true := by decide

/-- Row DE register, each word from the spec's table (R109). -/
theorem test_decode_de_register :
    ([([0xDE, 0xC2], .faddp [] 2),
      ([0xDE, 0xCB], .fmulp [] 3),
      ([0xDE, 0xD9], .fcompp []),
      ([0xDE, 0xE6], .fsubrp [] 6),
      ([0xDE, 0xEF], .fsubp [] 7),
      ([0xDE, 0xF1], .fdivrp [] 1),
      ([0xDE, 0xFA], .fdivp [] 2)] :
      List (List Byte × Instr)).all (fun q => reads true q.1 q.2) = true := by decide

/-- Row DF memory, each word from the spec's table (R108, R112). -/
theorem test_decode_df_memory :
    ([([0xDF, 0x03], .fildM16i [] (.base32 .ebx .none)),
      ([0xDF, 0x55, 0x80], .fistM16i [] (.base32 .ebp (.d8 0x80))),
      ([0xDF, 0x99, 0x04, 0x03, 0x02, 0x01], .fistpM16i [] (.base32 .ecx (.full 0x01020304))),
      ([0xDF, 0x24, 0x98], .fbld [] (.sib 2 (some .ebx) .eax .none)),
      ([0xDF, 0x6C, 0x24, 0x08], .fildM64i [] (.sib 0 none .esp (.d8 0x08))),
      ([0xDF, 0x34, 0xFD, 0x10, 0x00, 0x00, 0x00], .fbstp [] (.sibNoBase 3 (some .edi) 0x10)),
      ([0xDF, 0x3D, 0x44, 0x33, 0x22, 0x11], .fistpM64i [] (.disp32 0x11223344))] :
      List (List Byte × Instr)).all (fun q => reads true q.1 q.2) = true := by decide

/-- Row DF register, each word from the spec's table (R109). -/
theorem test_decode_df_register :
    ([([0xDF, 0xE0], .fstswAx [])] :
      List (List Byte × Instr)).all (fun q => reads true q.1 q.2) = true := by decide

/-- Row wait, each word from the spec's table (R106). -/
theorem test_decode_wait :
    ([([0x9B], .wait [])] :
      List (List Byte × Instr)).all (fun q => reads true q.1 q.2) = true := by decide

/-- Address forms of the 16-bit table (R112), and bytes before the opcode (R105). -/
theorem test_decode_address16 :
    ([([0xD9, 0x00], .fldM32r [] (.base16 .bxsi .none)), ([0xD9, 0x41, 0xFF], .fldM32r [] (.base16 .bxdi (.d8 0xFF))),
      ([0xD9, 0x82, 0x34, 0x12], .fldM32r [] (.base16 .bpsi (.full 0x1234))),
      ([0xD9, 0x03], .fldM32r [] (.base16 .bpdi .none)), ([0xD9, 0x04], .fldM32r [] (.base16 .si .none)),
      ([0xD9, 0x05], .fldM32r [] (.base16 .di .none)), ([0xD9, 0x06, 0x34, 0x12], .fldM32r [] (.disp16 0x1234)),
      ([0xD9, 0x46, 0x00], .fldM32r [] (.base16 .bp (.d8 0))), ([0xD9, 0x07], .fldM32r [] (.base16 .bx .none)),
      ([0x64, 0x66, 0x67, 0xD9, 0x00], .fldM32r [.seg .fs, .opSize, .adSize] (.base32 .eax .none))] :
      List (List Byte × Instr)).all (fun q => reads false q.1 q.2) = true := by decide

/-- FLD1 as a table word, and as the first instruction after reset. -/
theorem test_table_word : decodeTableWord 16 0xD9E8 = some (.fld1 []) := rfl
theorem test_table_word_wait : decodeTableWord 8 0x9B = some (.wait []) := rfl
theorem test_first_step : step (State.reset.withFetchWord 16 0xD9E8) =
    exec (.fld1 []) (State.reset.withFetchWord 16 0xD9E8) := rfl

/-! Single steps: the results are those of spec/95_test_vectors.md or follow from the rule named. -/

/-- S1: 1/3 is 3FFD AAAAAAAAAAAAAAAB rounded up, with PE (R278, R161, R167). -/
theorem test_fdiv_third : gives (.fdivStSti [] 1) (s0 [one, three])
    (fun t => t.npx.st 0 == 0x3FFDAAAAAAAAAAAAAAAB && t.npx.sw.pe && t.npx.sw.c1) = true := by decide +kernel
/-- S1, RC = 11: chopped. -/
theorem test_fdiv_third_chop : gives (.fdivStSti [] 1) (cw 0x0F7F (s0 [one, three]))
    (fun t => t.npx.st 0 == 0x3FFDAAAAAAAAAAAAAAAA && t.npx.sw.pe && !t.npx.sw.c1) = true := by decide +kernel
/-- FSUBP ST(1): ST(1) - ST(0), then the pop (R270). -/
theorem test_fsubp_order : gives (.fsubp [] 1) (s0 [one, four])
    (fun t => t.npx.st 0 == three && t.npx.sw.top == 7 && t.npx.tag 6 == .empty) = true := by decide +kernel
/-- FSUBR ST(i), ST: ST(0) - ST(i) into ST(i) (R272). -/
theorem test_fsubr_order : gives (.fsubrStiSt [] 1) (s0 [one, four])
    (fun t => t.npx.st 1 == 0xC000C000000000000000 && t.npx.sw.top == 6) = true := by decide +kernel
/-- FADD m32r of 1.0 (3F800000h) (R266, R76). -/
theorem test_fadd_m32 : gives (.faddM32r [] m100) (mem 4 0x3F800000 (s0 [two]))
    (fun t => t.npx.st 0 == three) = true := by decide +kernel
/-- FILD m16i of -1 (R205). -/
theorem test_fild_m16 : gives (.fildM16i [] m100) (mem 2 0xFFFF (s0 []))
    (fun t => t.npx.st 0 == minusOne && t.npx.sw.top == 7) = true := by decide +kernel
/-- FBSTP of 1.0 to nearest, and the pop (R221). -/
theorem test_fbstp : gives (.fbstp [] m100) (s0 [minusOne])
    (fun t => t.mem.readAll ((List.range 10).map (0x100 + ·)) == 0x80000000000000000001 && t.npx.sw.top == 0) = true := by
  decide +kernel
/-- FIST m16i of 2^63: the integer indefinite, with IE (R216, R224). -/
theorem test_fist_indefinite : gives (.fistM16i [] m100) (s0 [two63])
    (fun t => t.mem.readAll [0x100, 0x101] == 0x8000 && t.npx.sw.ie) = true := by decide +kernel
/-- S3, k = 5: FPREM of 16 by 3 leaves 1, quotient bits C0 C3 C1 = 101 (R286). -/
theorem test_fprem_quotient : gives (.fprem []) (s0 [0x40038000000000000000, three])
    (fun t => t.npx.st 0 == one && !t.npx.sw.c2 && t.npx.sw.c0 && !t.npx.sw.c3 && t.npx.sw.c1) = true := by
  decide +kernel
/-- FPREM1 of 5 by 3: quotient 2, remainder -1 (R287). -/
theorem test_fprem1_negative : gives (.fprem1 []) (s0 [0x4001A000000000000000, three])
    (fun t => t.npx.st 0 == minusOne && t.npx.sw.c3 && !t.npx.sw.c1) = true := by decide +kernel
/-- S6: FCOM of 2.0 with 3.0: less, C3 C2 C0 = 001 (R233). -/
theorem test_fcom_less : gives (.fcomSti [] 1) (s0 [two, three])
    (fun t => !t.npx.sw.c3 && !t.npx.sw.c2 && t.npx.sw.c0) = true := by decide +kernel
/-- S7: FXAM of minus infinity: C3 C2 C1 C0 = 0111 (R246). -/
theorem test_fxam : gives (.fxam []) (s0 [minusInf])
    (fun t => !t.npx.sw.c3 && t.npx.sw.c2 && t.npx.sw.c1 && t.npx.sw.c0) = true := by decide +kernel
/-- S11: FXTRACT of zero: ZE, minus infinity under the zero (R289). -/
theorem test_fxtract_zero : gives (.fxtract []) (s0 [0])
    (fun t => t.npx.sw.ze && t.npx.st 1 == minusInf && t.npx.st 0 == 0 && t.npx.sw.top == 6) = true := by
  decide +kernel
/-- S12: FPTAN onto a full stack: both are quiet NaNs, C1 = 1 (R302, R153). -/
theorem test_fptan_overflow : gives (.fptan []) (fullOf one)
    (fun t => t.npx.st 0 == qnan && t.npx.st 1 == qnan && t.npx.sw.ie && t.npx.sw.sf && t.npx.sw.c1 &&
      t.npx.sw.top == 7) = true := by decide +kernel
/-- S13: FSCALE(0, infinity) is invalid (R285). -/
theorem test_fscale_invalid : gives (.fscale []) (s0 [0, inf])
    (fun t => t.npx.st 0 == qnan && t.npx.sw.ie) = true := by decide +kernel
/-- FSQRT of 4.0 (R284). -/
theorem test_fsqrt : gives (.fsqrt []) (s0 [four]) (fun t => t.npx.st 0 == two && !t.npx.sw.pe) = true := by
  decide +kernel
/-- FLDPI with RC = 01 (R253). -/
theorem test_fldpi_down : gives (.fldpi []) (cw 0x077F (s0 []))
    (fun t => t.npx.st 0 == 0x4000C90FDAA22168C234) = true := by decide +kernel
/-- S9: FNINIT after reset clears SW (R321); FCLEX keeps TOP (R326). -/
theorem test_finit : gives (.finit []) State.reset (fun t => t.npx.sw.toBits == 0) = true := by decide +kernel
theorem test_fclex : gives (.fclex []) State.reset
    (fun t => !t.npx.sw.ie && !t.npx.sw.es && !t.npx.sw.b && t.npx.sw.top == 0) = true := by decide +kernel
/-- FSTSW AX after reset: 8081h (R322). -/
theorem test_fstsw_ax : gives (.fstswAx []) State.reset (fun t => t.cpu.eax == 0x8081) = true := by decide +kernel
/-- FYL2X of 4.0 with ST(1) = 3.0: 6.0, and the pop (R307). -/
theorem test_fyl2x : gives (.fyl2x []) (s0 [four, three])
    (fun t => t.npx.st 0 == 0x4001C000000000000000 && t.npx.sw.top == 7) = true := by decide +kernel
/-- S2: FLD m64r at FFFAh, limit FFFDh, 16-bit addresses: interrupt 9 (R92); at FFFCh: interrupt 13 (R91). -/
theorem test_interrupt9 : gives (.fldM64r [] (.disp16 0xFFFA)) (dsLimit 0xFFFD (s0 []))
    (fun t => t.cpu.interrupt.map (·.vector) == some .v9) = true := by decide +kernel
theorem test_interrupt13 : gives (.fldM64r [] (.disp16 0xFFFC)) (dsLimit 0xFFFD (s0 []))
    (fun t => t.cpu.interrupt.map (·.vector) == some .v13) = true := by decide +kernel

/-- An operand that starts at 10100h in a small segment: with limit 1FFFFh its bytes are those at 100h (R92); with limit
0FFFFh its start is beyond the limit, and interrupt 13 is raised (R91, log 6). -/
theorem test_small_wrap : gives (.fildM16i [] (.disp32 0x10100)) (dsLimit 0x1FFFF (mem 2 0xFFFF (s0 [])))
    (fun t => t.npx.st 0 == minusOne) = true := by decide +kernel
theorem test_small_start : gives (.fildM16i [] (.disp32 0x10100)) (dsLimit 0xFFFF (s0 []))
    (fun t => t.cpu.interrupt.map (·.vector) == some .v13) = true := by decide +kernel

/-- An unmasked IE that is no stack fault clears C1 (R31, R173): FADD of opposite infinities, C1 set before. -/
theorem test_unmasked_c1 : gives (.faddStSti [] 1) ({ cw 0x037E (s0 [inf, minusInf]) with
    npx := (cw 0x037E (s0 [inf, minusInf])).npx.withSw { (s0 [inf, minusInf]).npx.sw with c1 := true } })
    (fun t => t.npx.sw.ie && t.npx.sw.es && !t.npx.sw.c1 && t.npx.st 0 == inf) = true := by decide +kernel
/-- FST m32r of 2^128 with OE unmasked stores nothing (R164); C1 is 0, the rounding being exact (R31). -/
theorem test_fst_unmasked_overflow : gives (.fstM32r [] m100) (cw 0x0377 (mem 4 0x12345678 (s0 [0x407F8000000000000000])))
    (fun t => t.npx.sw.oe && !t.npx.sw.c1 && t.mem.readAll ((List.range 4).map (0x100 + ·)) == 0x12345678) = true := by
  decide +kernel
/-- Operands in a device region (R86), in a segment not present and in one that may not be written (R93). -/
theorem test_device : exec (.fldM32r [] m100) (device 0x103 (s0 [])) = .refused .deviceOperand := rfl
theorem test_not_present : exec (.fildM16i [] m100) (dsMarks false true (s0 [])) = .fault .hostAccess := rfl
theorem test_read_only : exec (.fstcw [] m100) (dsMarks true false (s0 [])) = .fault .hostAccess := rfl

/-! Witnesses: for each obligation with hypotheses, a state and operands that meet them all. -/

/-- The value of a positive pattern whose significand is 2^63: a power of two. -/
theorem val_pow2 (x : Ext) (hs : signOf x = false) (hm : sig x = 2 ^ 63) (he : 1 ≤ bexp x) :
    val x = (2 : ℚ) ^ ((bexp x : ℤ) - 16383) := by
  have h : ((max (bexp x) 1 : Nat) : ℤ) = bexp x := by omega
  unfold val
  rw [hs, hm, h, show ((bexp x : ℤ) - 16446) = ((bexp x : ℤ) - 16383) - 63 by ring, zpow_sub₀ two_ne_zero]
  have : (2 : ℚ) ^ (63 : ℤ) = 2 ^ 63 := by norm_num
  rw [this, if_neg (by decide)]
  push_cast
  field_simp
  norm_num

theorem val_one : val one = 1 := by
  rw [val_pow2 one (by decide) (by decide) (by decide), show bexp one = 16383 by decide]; norm_num
theorem val_two : val two = 2 := by
  rw [val_pow2 two (by decide) (by decide) (by decide), show bexp two = 16384 by decide]; norm_num
theorem val_four : val four = 4 := by
  rw [val_pow2 four (by decide) (by decide) (by decide), show bexp four = 16385 by decide]; norm_num
theorem val_zero : val 0 = 0 := by simp [val, sig]
/-- The smallest denormal. -/
theorem val_least_pos : 0 < val 1 := by
  unfold val
  rw [show signOf 1 = false by decide, show sig 1 = 1 by decide]
  norm_num
  positivity
theorem val_half : val half = 1 / 2 := by
  rw [val_pow2 half (by decide) (by decide) (by decide), show bexp half = 16382 by decide]; norm_num
theorem val_minusOne : val minusOne = -1 := by
  have h : bexp minusOne = 16383 := by decide
  have g : signOf minusOne = true := by decide
  have m : sig minusOne = 2 ^ 63 := by decide
  unfold val; rw [h, g, m]; norm_num
theorem val_of (x : Ext) (e : ℤ) (hs : signOf x = false) (hm : sig x = 2 ^ 63) (he : 1 ≤ bexp x)
    (hb : (bexp x : ℤ) - 16383 = e) : val x = (2 : ℚ) ^ e := by rw [val_pow2 x hs hm he, hb]

theorem val_huge : val huge = (2 : ℚ) ^ (16383 : ℤ) := val_of _ _ (by decide) (by decide) (by decide) (by decide)
theorem val_tiny : val tiny = (2 : ℚ) ^ (-16382 : ℤ) := val_of _ _ (by decide) (by decide) (by decide) (by decide)
theorem val_two63 : val two63 = (2 : ℚ) ^ (63 : ℤ) := val_of _ _ (by decide) (by decide) (by decide) (by decide)
theorem val_two100 : val two100 = (2 : ℚ) ^ (100 : ℤ) := val_of _ _ (by decide) (by decide) (by decide) (by decide)

/-- What is a multiple of the unit is its own rounding. -/
theorem rounding_self (rc : BitVec 2) (n u : ℤ) :
    IsRounding rc ((n : ℚ) * (2 : ℚ) ^ u) u ((n : ℚ) * (2 : ℚ) ^ u) := by
  have p : (0 : ℚ) < (2 : ℚ) ^ u := zpow_pos two_pos u
  refine ⟨⟨n, rfl⟩, ?_⟩
  have h : rc.toNat < 4 := rc.isLt
  interval_cases rc.toNat <;> simp [mul_self_nonneg, p, p.ne, p.le, eq_comm]

theorem rounding_int (rc : BitVec 2) (n : ℤ) : IsRounding rc (n : ℚ) 0 (n : ℚ) := by
  simpa using rounding_self rc n 0

theorem ulpExponent_pow2 (p : Nat) (e : ℤ) : ulpExponent p ((2 : ℚ) ^ e) = e - p + 1 := by
  rw [ulpExponent, abs_of_pos (zpow_pos two_pos e), show (2 : ℚ) ^ e = ((2 : ℕ) : ℚ) ^ e by norm_num,
    Int.log_zpow (by norm_num) e]

/-- A power of two is its own rounding to p bits. -/
theorem rounding_pow2 (rc : BitVec 2) (p : Nat) (e : ℤ) :
    IsRounding rc ((2 : ℚ) ^ e) (ulpExponent (p + 1) ((2 : ℚ) ^ e)) ((2 : ℚ) ^ e) := by
  have h := rounding_self rc (2 ^ p) (e - p)
  rw [ulpExponent_pow2, show e - ((p + 1 : ℕ) : ℤ) + 1 = e - p by push_cast; ring]
  have g : (((2 : ℤ) ^ p : ℤ) : ℚ) * (2 : ℚ) ^ (e - p) = (2 : ℚ) ^ e := by
    push_cast
    rw [← zpow_natCast, ← zpow_add₀ two_ne_zero]; congr 1; ring
  rwa [g] at h

theorem pow2_le {a b : ℤ} (h : a ≤ b) : (2 : ℚ) ^ a ≤ |(2 : ℚ) ^ b| := by
  rw [abs_of_pos (zpow_pos two_pos b)]; exact zpow_le_zpow_right₀ (by norm_num) h

theorem pow2_lt {a b : ℤ} (h : a < b) : |(2 : ℚ) ^ a| < (2 : ℚ) ^ b := by
  rw [abs_of_pos (zpow_pos two_pos a)]; exact zpow_lt_zpow_right₀ (by norm_num) h

theorem inRange_of {v : ℚ} (h : 1 ≤ |v|) (h' : |v| < 16) : InRange v :=
  ⟨(zpow_le_one_of_nonpos₀ (by norm_num) (by norm_num)).trans h,
    h'.trans_le (by
      calc (16 : ℚ) = 2 ^ (4 : ℤ) := by norm_num
        _ ≤ 2 ^ (16383 : ℤ) := zpow_le_zpow_right₀ (by norm_num) (by norm_num))⟩

/-- Every instruction is operable in a state where it is run: S0 with ST(0) = ST(1) = 1.0. -/
def everyInstr : List Instr :=
  [.faddM32r [] m100, .fmulM32r [] m100, .fcomM32r [] m100, .fcompM32r [] m100, .fsubM32r [] m100,
    .fsubrM32r [] m100, .fdivM32r [] m100, .fdivrM32r [] m100, .fiaddM32i [] m100, .fimulM32i [] m100,
    .ficomM32i [] m100, .ficompM32i [] m100, .fisubM32i [] m100, .fisubrM32i [] m100, .fidivM32i [] m100,
    .fidivrM32i [] m100, .faddM64r [] m100, .fmulM64r [] m100, .fcomM64r [] m100, .fcompM64r [] m100,
    .fsubM64r [] m100, .fsubrM64r [] m100, .fdivM64r [] m100, .fdivrM64r [] m100, .fiaddM16i [] m100,
    .fimulM16i [] m100, .ficomM16i [] m100, .ficompM16i [] m100, .fisubM16i [] m100, .fisubrM16i [] m100,
    .fidivM16i [] m100, .fidivrM16i [] m100, .fldM32r [] m100, .fstM32r [] m100, .fstpM32r [] m100, .fldenv [] m100,
    .fldcw [] m100, .fstenv [] m100, .fstcw [] m100, .fildM32i [] m100, .fistM32i [] m100, .fistpM32i [] m100,
    .fldM80r [] m100, .fstpM80r [] m100, .fldM64r [] m100, .fstM64r [] m100, .fstpM64r [] m100, .frstor [] m100,
    .fsave [] m100, .fstswM16 [] m100, .fildM16i [] m100, .fistM16i [] m100, .fistpM16i [] m100, .fbld [] m100,
    .fildM64i [] m100, .fbstp [] m100, .fistpM64i [] m100, .faddStSti [] 1, .fmulStSti [] 1, .fcomSti [] 1,
    .fcompSti [] 1, .fsubStSti [] 1, .fsubrStSti [] 1, .fdivStSti [] 1, .fdivrStSti [] 1, .fldSti [] 1, .fxch [] 1,
    .fnop [], .fchs [], .fabs [], .ftst [], .fxam [], .fld1 [], .fldl2t [], .fldl2e [], .fldpi [], .fldlg2 [],
    .fldln2 [], .fldz [], .f2xm1 [], .fyl2x [], .fptan [], .fpatan [], .fxtract [], .fprem1 [], .fdecstp [],
    .fincstp [], .fprem [], .fyl2xp1 [], .fsqrt [], .fsincos [], .frndint [], .fscale [], .fsin [], .fcos [],
    .fucompp [], .fclex [], .finit [], .faddStiSt [] 1, .fmulStiSt [] 1, .fsubrStiSt [] 1, .fsubStiSt [] 1,
    .fdivrStiSt [] 1, .fdivStiSt [] 1, .ffree [] 1, .fstSti [] 1, .fstpSti [] 1, .fucom [] 1, .fucomp [] 1,
    .faddp [] 1, .fmulp [] 1, .fcompp [], .fsubrp [] 1, .fsubp [] 1, .fdivrp [] 1, .fdivp [] 1, .fstswAx [],
    .wait [], .feni [], .fdisi [], .fsetpm []]

theorem witness_EveryOperableInstructionCompletes : everyInstr.all (operable (s0 [one, one])) = true := by decide +kernel

theorem witness_DecodeInvertsEncode :
    (Instr.fldM32r [.seg .es, .adSize] (.sib 2 (some .ecx) .ebp (.full 8))).wellFormed false = true ∧
      (Instr.wait []).wellFormed true = true ∧ (Instr.fld1 (List.replicate 13 .opSize)).wellFormed true = true := by
  decide

/-- At fifteen bytes, and past them. -/
theorem witness_DecodedBytesAreTheEncoding :
    (decode true (List.replicate 13 0x66 ++ [0xD9, 0xE8, 0x90]) = .ok (.fld1 (List.replicate 13 .opSize), [0x90]) ∧
      (Instr.fld1 (List.replicate 13 .opSize)).length ≤ 15) ∧
    (decode true (List.replicate 14 0x66 ++ [0xD9, 0xE8]) = .ok (.fld1 (List.replicate 14 .opSize), []) ∧
      ¬(Instr.fld1 (List.replicate 14 .opSize)).length ≤ 15) :=
  ⟨⟨rfl, by decide⟩, ⟨rfl, by decide⟩⟩

theorem witness_ReservedEncodingsAreThoseListed :
    (0xC0 : Byte).extractLsb' 6 2 = 3 ∧ (0xFF : Byte).extractLsb' 6 2 = 3 ∧ (0xBF : Byte).extractLsb' 6 2 ≠ 3 ∧
      reservedReg 1 0xD1 = true ∧ reservedReg 1 0xD0 = false ∧ reservedMem 1 1 = true ∧ reservedMem 1 2 = false := by
  decide

/-- FLD1 at CS:EIP. -/
def loaded : State := (s0 []).withFetchWord 16 0xD9E8

theorem witness_StepRunsDecodedInstruction :
    loaded.cpu.interrupt = none ∧ decode loaded.cpu.adSize32 loaded.code = .ok (.fld1 [], List.replicate 13 0) ∧
      (∀ k, k < (Instr.fld1 []).length → loaded.codeAddr k ∉ loaded.mem.npxStored) ∧
      loaded.codeInLimit (Instr.fld1 []).length = true := ⟨rfl, rfl, by decide, by decide⟩

/-- The same from memory: the second part's hypotheses. -/
theorem witness_StepRunsDecodedInstruction_bytes :
    loaded.cpu.interrupt = none ∧ (Instr.fld1 []).wellFormed loaded.cpu.adSize32 = true ∧
      (∀ k, k < (Instr.fld1 []).length →
        loaded.codeInLimit k = true ∧ loaded.cpu.accessible false (loaded.codeAddr k) = true ∧
          loaded.codeAddr k ∉ loaded.mem.npxStored ∧ loaded.mem.read (loaded.codeAddr k) = (encode (.fld1 [])).getD k 0) ∧
      loaded.codeInLimit (Instr.fld1 []).length = true := ⟨rfl, by decide, by decide, by decide⟩

/-- With the base, the limit and the size of CS, and EIP. -/
def atCode (base limit : DWord) (big : Bool) (eip : DWord) : State :=
  ({ s0 [] with cpu := { (s0 []).cpu with
      cs := { (s0 []).cpu.cs with base := base, limit := limit, big := big }, eip := eip } }).withFetchWord 16 0xD9E8

/-- The third part's hypotheses, at each boundary: FLD1 is stopped where the byte after it is the first beyond the limit,
offset 0FFFFh of a small segment, or linear address 0FFFFFFFFh, and runs one byte before. -/
theorem witness_StepRunsDecodedInstruction_end :
    [(0, 0xFFFF, false, 0xFFFE, 0xFFFD), (0, 0xFFFFFFFF, false, 0xFFFE, 0xFFFD), (0, 0x20000, true, 0x1FFFF, 0x1FFFE),
      (0xFFF00000, 0xFFFFFFFF, true, 0xFFFFE, 0xFFFFD)].all (fun q =>
      let s := atCode q.1 q.2.1 q.2.2.1 q.2.2.2.1
      let t := atCode q.1 q.2.1 q.2.2.1 q.2.2.2.2
      s.cpu.interrupt.isNone && !s.cpu.em && !s.cpu.ts &&
        (match decode s.cpu.adSize32 s.code with
          | .ok (i, _) => i == .fld1 []
          | .error _ => false) &&
        (List.range 2).all (fun k => !s.mem.npxStored.contains (s.codeAddr k)) &&
        decide (s.cpu.cs.limit.toNat < s.cpu.eip.toNat + 2 ∨ (s.cpu.cs.big = false ∧ 2 ^ 16 ≤ s.cpu.eip.toNat + 2) ∨
          2 ^ 32 ≤ s.cpu.cs.base.toNat + (s.cpu.eip.toNat + 2)) &&
        (match step s with
          | .refused r => r == .codeSegmentEnd
          | _ => false) &&
        (match step t with
          | .next u => u.cpu.eip == t.cpu.eip + 2
          | _ => false)) = true := by decide +kernel

/-- An interrupt 16 just raised. -/
def raised : State := State.reset.raise .v16

def someHandler : HandlerEntry := { cs := Segment.resetData, off := 0x40 }

theorem witness_StepEntersHandler :
    (raised.cpu.interrupt = some { vector := .v16, sel := 0xF000, off := 0xFFF0 } ∧ raised.cpu.handler .v16 = none) ∧
      ({ raised.cpu with handler16 := some someHandler }).handler .v16 = some someHandler := ⟨⟨rfl, rfl⟩, rfl⟩

theorem loaded_inv : loaded.Inv :=
  ⟨by decide +kernel, .inr ⟨⟨by decide, by decide⟩, fun k => by revert k; decide⟩⟩

theorem witness_EveryStepKeepsInvariant : loaded.Inv ∧ ∃ t, step loaded = .next t := ⟨loaded_inv, _, rfl⟩

theorem witness_ResetAndFninitValues : State.reset.cpu.em = false ∧ State.reset.cpu.ts = false := ⟨rfl, rfl⟩

theorem witness_HostFrame :
    (∃ t, exec (.fld1 []) (s0 []) = .next t ∧ ∀ p, Instr.fld1 [] ≠ .fstswAx p) ∧
      ∃ t, exec (.fstswAx []) (s0 []) = .next t := ⟨⟨_, rfl, fun p h => by cases h⟩, _, rfl⟩

/-- A store, at the byte below and the byte above its operand; and an instruction that stores nothing. -/
theorem witness_MemoryFrame :
    (∃ t, exec (.fstcw [] m100) (s0 []) = .next t) ∧
      ((operandOf (s0 []) (.fstcw [] m100)).map (·.addrs)) = some [0x100, 0x101] ∧
      (∃ t, exec (.fld1 []) (s0 []) = .next t) ∧ stores (.fld1 []) = false :=
  ⟨⟨_, rfl⟩, by decide, ⟨_, rfl⟩, rfl⟩

theorem witness_RegisterFrame :
    ∃ t, exec (.fld1 []) (s0 [one]) = .next t ∧ (s0 [one]).cpu.interrupt = none ∧ t.cpu.interrupt = none ∧
      (0 : Idx) ∉ touched (s0 [one]).npx (.fld1 []) ∧ topStep (.fld1 []) = some 7 :=
  ⟨_, rfl, rfl, rfl, by decide, rfl⟩

theorem witness_FlagFrame :
    ∃ t, exec (.faddp [] 1) (s0 [one, two]) = .next t ∧ (s0 [one, two]).cpu.interrupt = none ∧ t.cpu.interrupt = none ∧
      mayRaise (.faddp [] 1) = some { ie := true, de := true, oe := true, ue := true, pe := true } :=
  ⟨_, rfl, rfl, rfl, rfl⟩

theorem witness_ControlWordFrame : ∃ t, exec (.fld1 []) (s0 []) = .next t ∧ loadsControl (.fld1 []) = false :=
  ⟨_, rfl, rfl⟩

theorem witness_PointersRecordTheInstruction :
    (∃ t, exec (.fstcw [] m100) (s0 []) = .next t ∧ (s0 []).cpu.interrupt = none ∧ t.cpu.interrupt = none ∧
      leavesPointers (.fstcw [] m100) = true) ∧
    (∃ t o, exec (.fstpM80r [] m100) (s0 [one]) = .next t ∧ (s0 [one]).cpu.interrupt = none ∧
      t.cpu.interrupt = none ∧ leavesPointers (.fstpM80r [] m100) = false ∧ replacesPointers (.fstpM80r [] m100) = false ∧
      operandOf (s0 [one]) (.fstpM80r [] m100) = some o ∧ (s0 [one]).cpu.mode ≠ .protectedMode) :=
  ⟨⟨_, rfl, rfl, rfl, rfl⟩, _, _, rfl, rfl, rfl, rfl, rfl, rfl, by decide⟩

/-- Bytes at CS:EIP in a code segment that ends n bytes after it. -/
def codeAt (em ts : Bool) (n : Nat) (l : List Byte) : State :=
  let s := cr0 em ts (s0 [])
  { s with mem := s.placeCode l 0 s.mem,
           cpu := { s.cpu with cs := { s.cpu.cs with limit := s.cpu.eip + BitVec.ofNat 32 n - 1 } } }

/-- An instruction of each kind; then an ESC opcode, a reserved encoding's among them, and WAIT as the last byte of the code
segment, behind a segment-override byte; then D9 D1, reserved, with neither bit set. -/
theorem witness_InterruptSeven :
    (cr0 false true (s0 [])).cpu.ts = true ∧
    ((cr0 true false (s0 [])).cpu.em = true ∧ ∀ p, Instr.fld1 [] ≠ .wait p) ∧
    [(true, false, 0xD9), (false, true, 0xDF), (false, true, 0x9B)].all (fun q =>
      let s := codeAt q.1 q.2.1 2 [0x2E, q.2.2, 0xD1]
      s.cpu.interrupt.isNone && s.code == [PrefixByte.seg .cs].map encodePrefix ++ q.2.2 :: [] &&
      (List.range 2).all fun k => !s.mem.npxStored.contains (s.codeAddr k)) = true ∧
    (let s := codeAt false false 15 [0xD9, 0xD1]
     s.cpu.interrupt = none ∧ decode s.cpu.adSize32 s.code = .error .reserved ∧
      ((List.range s.reservedLength).all fun k => !s.mem.npxStored.contains (s.codeAddr k)) = true ∧
      s.cpu.em = false ∧ s.cpu.ts = false) :=
  ⟨rfl, ⟨rfl, fun p h => by cases h⟩, by decide +kernel, by decide +kernel⟩

theorem witness_InterruptSixteen :
    (State.reset.cpu.em = false ∧ State.reset.cpu.ts = false ∧ State.reset.npx.sw.es = true ∧
      exemptFrom16 (.fld1 []) = false) ∧
    ((∃ p, Instr.wait [] = .wait p) ∧ (cr0 true false State.reset).cpu.ts = false ∧
      (cr0 true false State.reset).npx.sw.es = true ∧ exemptFrom16 (.wait []) = false) ∧
    ∃ t q, exemptFrom16 (.fstcw [] m100) = true ∧ (dsLimit 0xFF State.reset).cpu.interrupt = none ∧
      exec (.fstcw [] m100) (dsLimit 0xFF State.reset) = .next t ∧ t.cpu.interrupt = some q :=
  ⟨⟨rfl, rfl, rfl, rfl⟩, ⟨⟨_, rfl⟩, rfl, rfl, rfl⟩, _, _, rfl, rfl, rfl, rfl⟩

/-- The last byte of a word operand beyond the limit; a start offset beyond it whose bytes wrap into the segment; the operand
of an exempt instruction with ES set; the stack's limit; a segment not present; a device at the operand's last byte. -/
theorem witness_InterruptThirteen :
    (∃ o, (dsLimit 0x100 (s0 [])).cpu.em = false ∧ (dsLimit 0x100 (s0 [])).cpu.ts = false ∧
      (dsLimit 0x100 (s0 [])).npx.sw.es = false ∧ operandOf (dsLimit 0x100 (s0 [])) (.fldcw [] m100) = some o ∧
      o.seg.present = true ∧ o.stack = false ∧ ∃ k, k < o.firstPiece ∧ o.seg.contains (o.offset k) = false) ∧
    (∃ o, operandOf (dsLimit 0xFFFF (s0 [])) (.fldcw [] (.disp32 0x10000)) = some o ∧ o.seg.present = true ∧
      o.stack = false ∧ o.seg.contains o.off.toNat = false ∧ ∀ k, k < o.firstPiece → o.seg.contains (o.offset k) = true) ∧
    (exemptFrom16 (.fstcw [] m100) = true ∧
      ∃ o, operandOf (dsLimit 0xFF State.reset) (.fstcw [] m100) = some o ∧
        ∃ k, k < o.firstPiece ∧ o.seg.contains (o.offset k) = false) ∧
    (∃ o, operandOf (ssLimit 0x100 (s0 [])) (.fldcw [.seg .ss] m100) = some o ∧ o.seg.present = true ∧ o.stack = true ∧
      ∃ k, k < o.firstPiece ∧ o.seg.contains (o.offset k) = false) ∧
    (∃ o, operandOf (dsMarks false true (s0 [])) (.fldcw [] m100) = some o ∧ o.seg.present = false) ∧
    ∃ o, operandOf (device 0x101 (s0 [])) (.fldcw [] m100) = some o ∧ o.seg.present = true ∧ o.firstInLimit = true ∧
      stores (.fldcw [] m100) = false ∧ ∃ k, k < o.bytes ∧ (device 0x101 (s0 [])).cpu.inDevice (o.linear k) = true :=
  ⟨⟨_, rfl, rfl, rfl, rfl, rfl, rfl, 1, by decide, by decide⟩, ⟨_, rfl, rfl, rfl, by decide, by decide⟩,
    ⟨rfl, _, rfl, 0, by decide, by decide⟩,
    ⟨_, rfl, rfl, rfl, 1, by decide, by decide⟩, ⟨_, rfl, rfl⟩, _, rfl, rfl, by decide, rfl, 1, by decide, by decide⟩

/-- Both ways of R92 for a load and for a store, at the first byte after the first piece and at the last byte but one; and
an instruction that has raised interrupt 9. -/
theorem witness_InterruptNine :
    (∃ o, Reaches (dsLimit 0x103 (s0 [])) (.faddM64r [] m100) o ∧ stores (.faddM64r [] m100) = false ∧
      SpansInaccessible (dsLimit 0x103 (s0 [])).cpu o false) ∧
    (∃ o, Reaches (hole 0x106 (s0 [])) (.fldM64r [] m100) o ∧ stores (.fldM64r [] m100) = false ∧
      SpansInaccessible (hole 0x106 (s0 [])).cpu o false) ∧
    (∃ o, Reaches (dsLimit 0x103 (s0 [])) (.fstenv [] m100) o ∧ stores (.fstenv [] m100) = true ∧
      storesAlways (.fstenv [] m100) = true ∧ SpansInaccessible (dsLimit 0x103 (s0 [])).cpu o true) ∧
    (∃ o, Reaches (hole 0x104 (s0 [one])) (.fstpM80r [] m100) o ∧ stores (.fstpM80r [] m100) = true ∧
      SpansInaccessible (hole 0x104 (s0 [one])).cpu o true ∧ (hole 0x104 (s0 [one])).npx.cw.im = true ∧
      (hole 0x104 (s0 [one])).npx.cw.om = true ∧ (hole 0x104 (s0 [one])).npx.cw.um = true) ∧
    ∃ t q, exec (.fstpM80r [] m100) (dsLimit 0x103 (s0 [one])) = .next t ∧
      (dsLimit 0x103 (s0 [one])).cpu.interrupt = none ∧ t.cpu.interrupt = some q ∧ q.vector = .v9 := by
  unfold Reaches SpansInaccessible
  exact ⟨⟨_, ⟨rfl, rfl, .inl rfl, rfl, rfl, by decide⟩, rfl, by decide, by decide, by decide, .inl ⟨4, by decide, by decide⟩⟩,
    ⟨_, ⟨rfl, rfl, .inl rfl, rfl, rfl, by decide⟩, rfl, by decide, by decide, by decide,
      .inr ⟨by decide, 6, by decide, by decide⟩⟩,
    ⟨_, ⟨rfl, rfl, .inl rfl, rfl, rfl, by decide⟩, rfl, rfl, by decide, by decide, by decide,
      .inl ⟨4, by decide, by decide⟩⟩,
    ⟨_, ⟨rfl, rfl, .inl rfl, rfl, rfl, by decide⟩, rfl, ⟨by decide, by decide, by decide,
      .inr ⟨by decide, 4, by decide, by decide⟩⟩, rfl, rfl, rfl⟩, _, _, rfl, rfl, rfl, rfl⟩

/-- The unmasked stack underflow, denormal operand and division by zero. -/
theorem witness_UnmaskedPreOperationChangesNothing :
    (∃ t, exec (.fabs []) (cw 0x037E (s0 [])) = .next t ∧ (cw 0x037E (s0 [])).cpu.interrupt = none ∧
      t.cpu.interrupt = none ∧ mayRaise (.fabs []) = some { ie := true } ∧ (cw 0x037E (s0 [])).npx.sw.ie = false ∧
      t.npx.sw.ie = true ∧ (cw 0x037E (s0 [])).npx.cw.im = false) ∧
    (∃ t, exec (.frndint []) (cw 0x037D (s0 [1])) = .next t ∧ t.cpu.interrupt = none ∧
      mayRaise (.frndint []) = some { ie := true, de := true, pe := true } ∧ (cw 0x037D (s0 [1])).npx.sw.de = false ∧
      t.npx.sw.de = true ∧ (cw 0x037D (s0 [1])).npx.cw.dm = false) ∧
    (∃ t, exec (.fxtract []) (cw 0x037B (s0 [0])) = .next t ∧ t.cpu.interrupt = none ∧
      mayRaise (.fxtract []) = some { ie := true, de := true, ze := true } ∧ (cw 0x037B (s0 [0])).npx.sw.ze = false ∧
      t.npx.sw.ze = true ∧ (cw 0x037B (s0 [0])).npx.cw.zm = false) :=
  ⟨⟨_, rfl, rfl, rfl, rfl, rfl, by decide +kernel, rfl⟩, ⟨_, rfl, rfl, rfl, rfl, by decide +kernel, rfl⟩,
    _, rfl, rfl, rfl, rfl, by decide +kernel, rfl⟩

/-- A push, masked and unmasked; FPTAN and FXTRACT, masked and unmasked. -/
theorem witness_StackOverflowResponses :
    (pushesOne (.fldSti [] 2) = true ∧ operable (fullOf one) (.fldSti [] 2) = true ∧ (fullOf one).npx.full = true ∧
      (∀ p j, Instr.fldSti [] 2 = .fldSti p j → (fullOf one).npx.empty j = false) ∧ (fullOf one).npx.cw.im = true) ∧
    (operable (cw 0x037E (fullOf one)) (.fldz []) = true ∧ (cw 0x037E (fullOf one)).npx.full = true ∧
      (∀ p j, Instr.fldz [] = .fldSti p j → (cw 0x037E (fullOf one)).npx.empty j = false) ∧
      (cw 0x037E (fullOf one)).npx.cw.im = false) ∧
    (makesPair (.fptan []) = true ∧ operable (fullOf one) (.fptan []) = true ∧ (fullOf one).npx.empty 0 = false) ∧
    (makesPair (.fxtract []) = true ∧ operable (cw 0x037E (fullOf one)) (.fxtract []) = true ∧
      (cw 0x037E (fullOf one)).npx.empty 0 = false) :=
  ⟨⟨rfl, by decide, by decide, fun p j _ => (by decide : ∀ j, (fullOf one).npx.empty j = false) j, by decide⟩,
    ⟨by decide, by decide, fun p j h => (nomatch h), by decide⟩, ⟨rfl, by decide, by decide⟩, rfl, by decide, by decide⟩

/-- A full stack but for ST(3). -/
def hollow : State := { fullOf one with npx := (fullOf one).npx.setTag 3 .empty }

/-- Every kind of instruction, with IE masked (S0) and unmasked. -/
theorem witness_StackUnderflowResponses :
    [(0x037F, true), (0x037E, false)].all (fun q =>
      (cw q.1 (s0 [])).npx.cw.im == q.2 && (cw q.1 (s0 [])).mem.wf &&
      [(Instr.faddp [] 1, ResultForm.mk [.reg 1, .reg 0] 1 1), (.fmulStSti [] 7, ⟨[.reg 0, .reg 7], 0, 0⟩),
        (.fdivrM32r [] m100, ⟨[.mem (.real single), .reg 0], 0, 0⟩), (.fsqrt [], ⟨[.reg 0], 0, 0⟩),
        (.fyl2x [], ⟨[.reg 0, .reg 1], 1, 1⟩), (.fstpSti [] 1, ⟨[.reg 0], 1, 1⟩)].all (fun z =>
        (computes z.1 == some z.2 || copies z.1 == some z.2) && operable (cw q.1 (s0 [])) z.1 &&
          z.2.hasEmpty (cw q.1 (s0 [])) z.1) &&
      [Instr.fxtract [], .fptan [], .fsincos []].all (fun i =>
        makesPair i && operable (cw q.1 (s0 [])) i && (cw q.1 (s0 [])).npx.empty 0) &&
      (operable (cw q.1 (s0 [])) (.fldSti [] 1) && (cw q.1 (s0 [])).npx.empty 1) &&
      (operable (cw q.1 hollow) (.fldSti [] 3) && (cw q.1 hollow).npx.empty 3 && (cw q.1 hollow).npx.full) &&
      [(Instr.fstM32r [] m100, 0xFFC00000, 0), (.fstpM64r [] m100, 0xFFF8000000000000, 1), (.fistM16i [] m100, 0x8000, 0),
        (.fistpM64i [] m100, 0x8000000000000000, 1), (.fstpM80r [] m100, 0xFFFFC000000000000000, 1),
        (.fbstp [] m100, 0xFFFFC000000000000000, 1)].all (fun z =>
        storeForm z.1 == some z.2 && operable (cw q.1 (s0 [])) z.1 && (cw q.1 (s0 [])).npx.empty 0) &&
      [(Instr.fcompp [], Source.reg 1, 2), (.ftst [], .posZero, 0), (.ficompM16i [] m100, .mem (.int 2), 1)].all (fun z =>
        compareForm z.1 == some z.2 && operable (cw q.1 (s0 [])) z.1 && (cw q.1 (s0 [])).npx.empty 0) &&
      (operable (cw q.1 (s0 [one])) (.fucom [] 1) && (datum (cw q.1 (s0 [one])) (.fucom [] 1) (.reg 1)).empty) &&
      [Instr.fxch [] 0, .fabs [], .fchs []].all (fun i =>
        operable (cw q.1 (s0 [])) i && (cw q.1 (s0 [])).npx.empty 0) &&
      (operable (cw q.1 (s0 [one])) (.fxch [] 7) && (cw q.1 (s0 [one])).npx.empty 7)) = true := by
  decide +kernel

/-- FLD m32r of 1.0, of the smallest denormal with DE masked and unmasked, of an infinity, a quiet NaN and a signaling one
with IE masked and unmasked; FILD m64i of the least integer; FBLD of the least decimal. -/
theorem witness_NumberLoadsAreExact :
    [(0x037F, 0x3F800000, fun d : Datum => d.number true), (0x037F, 1, fun d => d.number true),
      (0x037D, 1, fun d => d.cls == .denormal), (0x037F, 0xFF800000, fun d => d.cls == .infinity),
      (0x037F, 0x7FC00000, fun d => d.cls == .qnan), (0x037F, 0x7F800001, fun d => d.cls == .snan),
      (0x037E, 0x7F800001, fun d => d.cls == .snan)].all (fun q =>
        let s := cw q.1 (mem 4 q.2.1 (s0 []))
        numberLoad (.fldM32r [] m100) == some (.real single) && operable s (.fldM32r [] m100) && !s.npx.full &&
          q.2.2 (datum s (.fldM32r [] m100) (.mem (.real single)))) = true ∧
    ((cw 0x037F (s0 [])).npx.cw.dm = true ∧ (cw 0x037D (s0 [])).npx.cw.dm = false ∧
      (cw 0x037F (s0 [])).npx.cw.im = true ∧ (cw 0x037E (s0 [])).npx.cw.im = false) ∧
    (numberLoad (.fildM64i [] m100) = some (.int 8) ∧ operable (mem 8 (2 ^ 63) (s0 [])) (.fildM64i [] m100) = true ∧
      (datum (mem 8 (2 ^ 63) (s0 [])) (.fildM64i [] m100) (.mem (.int 8))).number true = true) ∧
    (operable (mem 10 0x80999999999999999999 (s0 [])) (.fbld [] m100) = true ∧
      (mem 10 0x80999999999999999999 (s0 [])).npx.full = false) := by
  refine ⟨?_, ?_, ?_, ?_⟩ <;> decide +kernel

/-- In each of the four roundings. -/
theorem witness_ConstantLoads :
    [0x037F, 0x077F, 0x0B7F, 0x0F7F].all (fun w =>
      [Instr.fldz [], .fld1 [], .fldpi [], .fldl2t [], .fldl2e [], .fldlg2 [], .fldln2 []].all (operable (cw w (s0 []))) &&
        !(cw w (s0 [])).npx.full) = true := by decide +kernel

/-- A power of two in ST(0), in a store to single that is operable under the control word w. -/
def StoreMeets (w : BitVec 16) (x : Ext) (e : ℤ) : Prop :=
  realStore (.fstpM32r [] m100) = some (single, 1) ∧ operable (cw w (s0 [x])) (.fstpM32r [] m100) = true ∧
    (cw w (s0 [x])).mem.wf = true ∧ (cw w (s0 [x])).npx.empty 0 = false ∧ finite ((cw w (s0 [x])).npx.st 0) = true ∧
    val ((cw w (s0 [x])).npx.st 0) = (2 : ℚ) ^ e ∧
    IsRounding (cw w (s0 [x])).npx.cw.rc (val ((cw w (s0 [x])).npx.st 0))
      (ulpExponent (single.fw + 1) (val ((cw w (s0 [x])).npx.st 0))) ((2 : ℚ) ^ e)

theorem storeMeets (w : BitVec 16) (x : Ext) (e : ℤ) (h : (cw w (s0 [x])).npx.st 0 = x)
    (o : operable (cw w (s0 [x])) (.fstpM32r [] m100) = true) (m : (cw w (s0 [x])).npx.empty 0 = false)
    (f : finite x = true) (v : val x = (2 : ℚ) ^ e) : StoreMeets w x e := by
  unfold StoreMeets
  rw [h, v]
  exact ⟨rfl, o, (rfl : State.reset.mem.wf = true), m, f, rfl, rounding_pow2 _ _ e⟩

/-- The least and the greatest power of two that are normal in single; a zero, an infinity, a quiet NaN; a signaling NaN
and an unsupported pattern with IE masked and unmasked. -/
theorem witness_RealStoresRoundCorrectly :
    (StoreMeets 0x037F 0x3F818000000000000000 (-126) ∧ (2 : ℚ) ^ (1 - single.bias : ℤ) ≤ |(2 : ℚ) ^ (-126 : ℤ)| ∧
      |(2 : ℚ) ^ (-126 : ℤ)| < (2 : ℚ) ^ (single.bias + 1 : ℤ)) ∧
    (StoreMeets 0x037F 0x407E8000000000000000 127 ∧ (2 : ℚ) ^ (1 - single.bias : ℤ) ≤ |(2 : ℚ) ^ (127 : ℤ)| ∧
      |(2 : ℚ) ^ (127 : ℤ)| < (2 : ℚ) ^ (single.bias + 1 : ℤ)) ∧
    [(0x037F, 0, Class.zero), (0x037F, minusInf, .infinity), (0x037F, qnan, .qnan),
      (0x037F, 0x7FFF8000000000000001, .snan), (0x037E, 0x7FFF8000000000000001, .snan),
      (0x037F, 0x3FFF0000000000000001, .unsupported), (0x037E, 0x3FFF0000000000000001, .unsupported)].all (fun q =>
        let s := cw q.1 (s0 [q.2.1])
        operable s (.fstM64r [] m100) && s.mem.wf && !s.npx.empty 0 && classOf (s.npx.st 0) == q.2.2) = true := by
  refine ⟨⟨storeMeets _ _ _ (by decide) (by decide) (by decide) (by decide)
    (val_of _ _ (by decide) (by decide) (by decide) (by decide)), pow2_le (by decide), pow2_lt (by decide)⟩,
    ⟨storeMeets _ _ _ (by decide) (by decide) (by decide) (by decide)
    (val_of _ _ (by decide) (by decide) (by decide) (by decide)), pow2_le (by decide), pow2_lt (by decide)⟩, ?_⟩
  decide +kernel

/-- 2^128, the first overflow in single, to nearest, chopped, and unmasked; 2^-127, half the smallest normal number, with
underflow masked and unmasked. -/
theorem witness_RealStoreOverflowAndUnderflow :
    (StoreMeets 0x037F 0x407F8000000000000000 128 ∧ (2 : ℚ) ^ (single.bias + 1 : ℤ) ≤ |(2 : ℚ) ^ (128 : ℤ)| ∧
      (ControlWord.ofBits 0x037F).om = true ∧ (ControlWord.ofBits 0x037F).rc = 0) ∧
    (StoreMeets 0x0F7F 0x407F8000000000000000 128 ∧ (ControlWord.ofBits 0x0F7F).rc = 3) ∧
    (StoreMeets 0x0377 0x407F8000000000000000 128 ∧ (ControlWord.ofBits 0x0377).om = false) ∧
    (StoreMeets 0x037F 0x3F808000000000000000 (-127) ∧ |(2 : ℚ) ^ (-127 : ℤ)| < (2 : ℚ) ^ (1 - single.bias : ℤ) ∧
      (ControlWord.ofBits 0x037F).um = true) ∧
    (StoreMeets 0x036F 0x3F808000000000000000 (-127) ∧ |(2 : ℚ) ^ (-127 : ℤ)| < (2 : ℚ) ^ (1 - single.bias : ℤ) ∧
      (ControlWord.ofBits 0x036F).um = false) := by
  refine ⟨⟨storeMeets _ _ _ ?_ ?_ ?_ ?_ (val_of _ _ ?_ ?_ ?_ ?_), pow2_le ?_, ?_, ?_⟩,
    ⟨storeMeets _ _ _ ?_ ?_ ?_ ?_ (val_of _ _ ?_ ?_ ?_ ?_), ?_⟩, ⟨storeMeets _ _ _ ?_ ?_ ?_ ?_ (val_of _ _ ?_ ?_ ?_ ?_), ?_⟩,
    ⟨storeMeets _ _ _ ?_ ?_ ?_ ?_ (val_of _ _ ?_ ?_ ?_ ?_), pow2_lt ?_, ?_⟩,
    ⟨storeMeets _ _ _ ?_ ?_ ?_ ?_ (val_of _ _ ?_ ?_ ?_ ?_), pow2_lt ?_, ?_⟩⟩ <;> decide

/-- FISTP m16i: at a tie (0.5, to even), at the greatest power of two in range, at the first one out of it with IE masked
and unmasked, and an infinity. -/
theorem witness_IntegerAndDecimalStoresRoundCorrectly :
    (∃ (fits : ℤ → Prop) (bits : ℤ → Nat), storeForm (.fistpM16i [] m100) = some (0x8000, 1) ∧
      (∃ n, intStore (.fistpM16i [] m100) = some (n, 1) ∧ (∀ z, fits z ↔ -2 ^ (n - 1) ≤ z ∧ z < 2 ^ (n - 1)) ∧
        ∀ z, bits z = (BitVec.ofInt n z).toNat) ∧ fits 0 ∧ fits (2 ^ 14) ∧ ¬fits (2 ^ 15)) ∧
    (operable (s0 [half]) (.fistpM16i [] m100) = true ∧ (s0 [half]).mem.wf = true ∧ (s0 [half]).npx.empty 0 = false ∧
      finite ((s0 [half]).npx.st 0) = true ∧
      IsRounding (s0 [half]).npx.cw.rc (val ((s0 [half]).npx.st 0)) 0 ((0 : ℤ) : ℚ)) ∧
    (operable (s0 [0x400D8000000000000000]) (.fistpM16i [] m100) = true ∧
      IsRounding (s0 [0x400D8000000000000000]).npx.cw.rc (val ((s0 [0x400D8000000000000000]).npx.st 0)) 0
        ((2 ^ 14 : ℤ) : ℚ)) ∧
    (operable (s0 [0x400E8000000000000000]) (.fistpM16i [] m100) = true ∧
      IsRounding (s0 [0x400E8000000000000000]).npx.cw.rc (val ((s0 [0x400E8000000000000000]).npx.st 0)) 0
        ((2 ^ 15 : ℤ) : ℚ) ∧ (s0 [0x400E8000000000000000]).npx.cw.im = true) ∧
    (operable (cw 0x037E (s0 [inf])) (.fistpM16i [] m100) = true ∧ finite ((cw 0x037E (s0 [inf])).npx.st 0) = false ∧
      (cw 0x037E (s0 [inf])).npx.cw.im = false) := by
  have h : (s0 [half]).npx.st 0 = half := by decide
  have g : (s0 [0x400E8000000000000000]).npx.st 0 = 0x400E8000000000000000 := by decide
  have f : (s0 [0x400D8000000000000000]).npx.st 0 = 0x400D8000000000000000 := by decide
  have v : val 0x400E8000000000000000 = ((2 ^ 15 : ℤ) : ℚ) :=
    (val_of _ 15 (by decide) (by decide) (by decide) (by decide)).trans (by norm_num)
  have u : val 0x400D8000000000000000 = ((2 ^ 14 : ℤ) : ℚ) :=
    (val_of _ 14 (by decide) (by decide) (by decide) (by decide)).trans (by norm_num)
  have rc : (s0 [half]).npx.cw.rc = 0 := by rfl
  rw [h, g, f, val_half, v, u, rc]
  exact ⟨⟨fun z => -2 ^ 15 ≤ z ∧ z < 2 ^ 15, fun z => (BitVec.ofInt 16 z).toNat, rfl,
      ⟨16, rfl, fun z => Iff.rfl, fun z => rfl⟩, by norm_num, by norm_num, by norm_num⟩,
    ⟨by decide, by decide, by decide, by decide, ⟨0, by norm_num⟩, by norm_num, fun _ => ⟨0, by norm_num⟩⟩,
    ⟨by decide, rounding_int _ _⟩, ⟨by decide, rounding_int _ _, by decide⟩, by decide, by decide, by decide⟩

/-- FBSTP at 1.0, and at 2^63, out of range. -/
theorem witness_IntegerAndDecimalStoresRoundCorrectly_decimal :
    (∃ (fits : ℤ → Prop) (bits : ℤ → Nat), storeForm (.fbstp [] m100) = some (0xFFFFC000000000000000, 1) ∧
      (∀ z, fits z ↔ |z| < 10 ^ 18) ∧
      (∀ z, bits z = (if signOf ((s0 [one]).npx.st 0) then 2 ^ 79 else 0) +
        ((List.range 18).map fun k => z.natAbs / 10 ^ k % 10 * 16 ^ k).sum) ∧ fits 1 ∧ ¬fits (2 ^ 63)) ∧
    (operable (s0 [one]) (.fbstp [] m100) = true ∧ (s0 [one]).mem.wf = true ∧ (s0 [one]).npx.empty 0 = false ∧
      finite ((s0 [one]).npx.st 0) = true ∧
      IsRounding (s0 [one]).npx.cw.rc (val ((s0 [one]).npx.st 0)) 0 ((1 : ℤ) : ℚ)) ∧
    (operable (s0 [two63]) (.fbstp [] m100) = true ∧
      IsRounding (s0 [two63]).npx.cw.rc (val ((s0 [two63]).npx.st 0)) 0 ((2 ^ 63 : ℤ) : ℚ) ∧
      (s0 [two63]).npx.cw.im = true) := by
  have h : (s0 [one]).npx.st 0 = one := by decide
  have g : (s0 [two63]).npx.st 0 = two63 := by decide
  have v : (2 : ℚ) ^ (63 : ℤ) = ((2 ^ 63 : ℤ) : ℚ) := by norm_num
  have w : (1 : ℚ) = ((1 : ℤ) : ℚ) := by norm_num
  rw [g, val_two63, v]
  refine ⟨⟨fun z => |z| < 10 ^ 18, _, rfl, fun z => Iff.rfl, fun z => rfl, by norm_num, by norm_num⟩,
    ⟨by decide, by decide, by decide, by decide, ?_⟩, by decide, rounding_int _ _, by decide⟩
  rw [h, val_one, w]; exact rounding_int _ _

theorem witness_CopiesKeepEveryBit :
    (operable (s0 []) (.fldM80r [] m100) = true ∧ (s0 []).npx.full = false) ∧
    (operable (s0 [one, two]) (.fldSti [] 1) = true ∧ (s0 [one, two]).npx.full = false ∧
      (s0 [one, two]).npx.empty 1 = false) ∧
    (operable (s0 [one]) (.fstpM80r [] m100) = true ∧ (s0 [one]).mem.wf = true ∧ (s0 [one]).npx.empty 0 = false) ∧
    (copies (.fstSti [] 7) = some ⟨[.reg 0], 7, 0⟩ ∧ operable (s0 [one]) (.fstSti [] 7) = true) ∧
    (copies (.fstpSti [] 0) = some ⟨[.reg 0], 0, 1⟩ ∧ operable (s0 [one]) (.fstpSti [] 0) = true) := by decide +kernel

theorem witness_ExchangeSwapsRegisters :
    operable (s0 [one, two]) (.fxch [] 1) = true ∧
      ((s0 [one, two]).npx.empty 0 = false ∧ (s0 [one, two]).npx.empty 1 = false) ∧
      (operable (s0 [one]) (.fxch [] 1) = true ∧ (s0 [one]).npx.empty 1 = true ∧ (s0 [one]).npx.cw.im = true) ∧
      (operable (cw 0x037E (s0 [])) (.fxch [] 0) = true ∧ (cw 0x037E (s0 [])).npx.empty 0 = true ∧
        (cw 0x037E (s0 [])).npx.cw.im = false) := by
  decide +kernel

/-- Two numbers, an infinity, denormals with DE masked and unmasked; registers, FTST and memory. -/
theorem witness_ComparisonsOrder :
    [(s0 [one, two], Instr.fcompp [], Source.reg 1), (s0 [minusInf, inf], .fucomp [] 1, .reg 1),
      (s0 [1, one], .ftst [], .posZero), (mem 8 0x7FF0000000000000 (s0 [one]), .fcompM64r [] m100, .mem (.real double)),
      (s0 [one], .ficomM16i [] m100, .mem (.int 2))].all (fun q =>
        (compareForm q.2.1).map (·.1) == some q.2.2 && operable q.1 q.2.1 &&
          (datum q.1 q.2.1 (.reg 0)).orderable q.1.npx.cw.dm && (datum q.1 q.2.1 q.2.2).orderable q.1.npx.cw.dm) = true ∧
    [(cw 0x037D (s0 [one, 1]), Instr.fcomSti [] 1, Source.reg 1),
      (cw 0x037D (mem 4 1 (s0 [inf])), .fcomM32r [] m100, .mem (.real single))].all (fun q =>
        (compareForm q.2.1).map (·.1) == some q.2.2 && operable q.1 q.2.1 && (datum q.1 q.2.1 (.reg 0)).orderable true &&
          (datum q.1 q.2.1 q.2.2).orderable true && (datum q.1 q.2.1 q.2.2).cls == .denormal && !q.1.npx.cw.dm) = true := by
  constructor <;> decide +kernel

/-- A quiet NaN unordered and ordered, with IE masked and unmasked; a signaling NaN unordered; an unsupported pattern and
FTST; NaNs in memory. -/
theorem witness_UnorderedComparisons :
    [(s0 [one, qnan], Instr.fucompp [], Source.reg 1), (s0 [one, qnan], .fcompSti [] 1, .reg 1),
      (cw 0x037E (s0 [one, qnan]), .fcomSti [] 1, .reg 1), (s0 [0x7FFF8000000000000001, one], .fucom [] 1, .reg 1),
      (cw 0x037E (s0 [0x7FFF8000000000000001, one]), .fucom [] 1, .reg 1),
      (s0 [0x3FFF0000000000000001], .ftst [], .posZero),
      (mem 4 0x7FC00000 (s0 [one]), .fcompM32r [] m100, .mem (.real single)),
      (cw 0x037E (mem 8 0x7FF0000000000001 (s0 [one])), .fcomM64r [] m100, .mem (.real double))].all (fun q =>
        let x := datum q.1 q.2.1 (.reg 0)
        let y := datum q.1 q.2.1 q.2.2
        (compareForm q.2.1).map (·.1) == some q.2.2 && operable q.1 q.2.1 && !x.empty && !y.empty &&
          (x.isNaN || y.isNaN || x.cls == .unsupported)) = true ∧
    (ordered (.fucompp []) = false ∧ ordered (.fcompSti [] 1) = true ∧ (s0 []).npx.cw.im = true ∧
      (cw 0x037E (s0 [])).npx.cw.im = false) := by constructor <;> decide +kernel

theorem witness_ExamineReportsTheClass :
    operable (s0 [one]) (.fxam []) = true ∧ operable (s0 []) (.fxam []) = true ∧ operable (s0 [qnan]) (.fxam []) = true ∧
      operable (s0 [1]) (.fxam []) = true := by decide +kernel

/-- ST(0) times ST(1), both powers of two, under the control word w: what the statements about numbers ask, with the exact
product 2^e. -/
def MulMeets (w : BitVec 16) (x y : Ext) (e : ℤ) : Prop :=
  arithForm (.fmulStSti [] 1) = some ⟨.mul, .reg 0, .reg 1, 0, 0⟩ ∧
    operable (cw w (s0 [x, y])) (.fmulStSti [] 1) = true ∧
    (ArithForm.mk .mul (.reg 0) (.reg 1) 0 0).numbers (cw w (s0 [x, y])) (.fmulStSti [] 1) ∧
    (ArithForm.mk .mul (.reg 0) (.reg 1) 0 0).exact (cw w (s0 [x, y])) (.fmulStSti [] 1) = (2 : ℚ) ^ e ∧
    (2 : ℚ) ^ e ≠ 0 ∧
    IsRounding (cw w (s0 [x, y])).npx.cw.rc ((2 : ℚ) ^ e)
      (ulpExponent (precisionBits (cw w (s0 [x, y])).npx.cw.pc) ((2 : ℚ) ^ e)) ((2 : ℚ) ^ e)

theorem mulMeets (w : BitVec 16) (x y : Ext) (a b : ℤ) (hx : (cw w (s0 [x, y])).npx.st 0 = x)
    (hy : (cw w (s0 [x, y])).npx.st 1 = y) (o : operable (cw w (s0 [x, y])) (.fmulStSti [] 1) = true)
    (n : (datum (cw w (s0 [x, y])) (.fmulStSti [] 1) (.reg 0)).number (cw w (s0 [x, y])).npx.cw.dm = true)
    (m : (datum (cw w (s0 [x, y])) (.fmulStSti [] 1) (.reg 1)).number (cw w (s0 [x, y])).npx.cw.dm = true)
    (vx : val x = (2 : ℚ) ^ a) (vy : val y = (2 : ℚ) ^ b) : MulMeets w x y (a + b) := by
  refine ⟨rfl, o, ⟨n, m, fun h => nomatch h⟩, ?_, (zpow_pos two_pos _).ne', ?_⟩
  · change val ((cw w (s0 [x, y])).npx.st 0) * val ((cw w (s0 [x, y])).npx.st 1) = _
    rw [hx, hy, vx, vy, zpow_add₀ two_ne_zero]
  · unfold precisionBits
    split
    · exact rounding_pow2 _ 23 _
    split
    · exact rounding_pow2 _ 52 _
    exact rounding_pow2 _ 63 _

theorem pow_one : val one = (2 : ℚ) ^ (0 : ℤ) := val_of _ _ (by decide) (by decide) (by decide) (by decide)
theorem pow_two : val two = (2 : ℚ) ^ (1 : ℤ) := val_of _ _ (by decide) (by decide) (by decide) (by decide)
theorem pow_half : val half = (2 : ℚ) ^ (-1 : ℤ) := val_of _ _ (by decide) (by decide) (by decide) (by decide)

/-- The least product that is not tiny, the greatest power of two that does not overflow, in double precision rounding
up; and FIDIVR m16i. -/
theorem witness_ArithmeticRoundsCorrectly :
    (MulMeets 0x037F tiny one (-16382 + 0) ∧ (2 : ℚ) ^ (-16382 : ℤ) ≤ |(2 : ℚ) ^ (-16382 + 0 : ℤ)| ∧
      |(2 : ℚ) ^ (-16382 + 0 : ℤ)| < (2 : ℚ) ^ (16384 : ℤ)) ∧
    (MulMeets 0x0A7F huge one (16383 + 0) ∧ (2 : ℚ) ^ (-16382 : ℤ) ≤ |(2 : ℚ) ^ (16383 + 0 : ℤ)| ∧
      |(2 : ℚ) ^ (16383 + 0 : ℤ)| < (2 : ℚ) ^ (16384 : ℤ)) :=
  ⟨⟨mulMeets _ _ _ _ _ (by decide) (by decide) (by decide) (by decide) (by decide) val_tiny pow_one,
      pow2_le (by decide), pow2_lt (by decide)⟩,
    mulMeets _ _ _ _ _ (by decide) (by decide) (by decide) (by decide) (by decide) val_huge pow_one,
      pow2_le (by decide), pow2_lt (by decide)⟩

/-- 4 in memory by 2, the operands reversed. -/
theorem witness_ArithmeticRoundsCorrectly_memory :
    (arithForm (.fidivrM16i [] m100) = some ⟨.div, .mem (.int 2), .reg 0, 0, 0⟩ ∧
      operable (mem 2 4 (s0 [two])) (.fidivrM16i [] m100) = true ∧
      (ArithForm.mk .div (.mem (.int 2)) (.reg 0) 0 0).numbers (mem 2 4 (s0 [two])) (.fidivrM16i [] m100)) ∧
    (ArithForm.mk .div (.mem (.int 2)) (.reg 0) 0 0).exact (mem 2 4 (s0 [two])) (.fidivrM16i [] m100) = (2 : ℚ) ^ (1 : ℤ) ∧
    (2 : ℚ) ^ (-16382 : ℤ) ≤ |(2 : ℚ) ^ (1 : ℤ)| ∧ |(2 : ℚ) ^ (1 : ℤ)| < (2 : ℚ) ^ (16384 : ℤ) ∧
    IsRounding (mem 2 4 (s0 [two])).npx.cw.rc ((2 : ℚ) ^ (1 : ℤ))
      (ulpExponent (precisionBits (mem 2 4 (s0 [two])).npx.cw.pc) ((2 : ℚ) ^ (1 : ℤ))) ((2 : ℚ) ^ (1 : ℤ)) := by
  have h : (mem 2 4 (s0 [two])).npx.st 0 = two := by decide
  have b : operandBytes (mem 2 4 (s0 [two])) (.fidivrM16i [] m100) = 4 := by decide +kernel
  have v : (MemNumber.int 2).value 4 = 4 := by
    have h : (BitVec.ofNat (8 * 2) 4).toInt = 4 := by decide
    change (((BitVec.ofNat (8 * 2) 4).toInt : ℤ) : ℚ) = 4
    rw [h]; norm_num
  refine ⟨⟨rfl, by decide +kernel, by decide +kernel, by decide, fun _ => ?_⟩, ?_, pow2_le (by decide),
    pow2_lt (by decide), rounding_pow2 _ 63 _⟩
  · change val ((mem 2 4 (s0 [two])).npx.st 0) ≠ 0
    rw [h, val_two]; norm_num
  · change (MemNumber.int 2).value (operandBytes (mem 2 4 (s0 [two])) (.fidivrM16i [] m100)) /
      val ((mem 2 4 (s0 [two])).npx.st 0) = _
    rw [b, v, h, val_two]; norm_num

/-- 1 - 1; infinity plus 1, and 1 over infinity. -/
theorem witness_ZeroAndInfiniteResults :
    (arithForm (.fsubStSti [] 1) = some ⟨.sub, .reg 0, .reg 1, 0, 0⟩ ∧ operable (s0 [one, one]) (.fsubStSti [] 1) = true ∧
      (ArithForm.mk .sub (.reg 0) (.reg 1) 0 0).numbers (s0 [one, one]) (.fsubStSti [] 1) ∧
      (ArithForm.mk .sub (.reg 0) (.reg 1) 0 0).exact (s0 [one, one]) (.fsubStSti [] 1) = 0) ∧
    (arithForm (.faddp [] 1) = some ⟨.add, .reg 1, .reg 0, 1, 1⟩ ∧ operable (s0 [one, minusInf]) (.faddp [] 1) = true ∧
      (datum (s0 [one, minusInf]) (.faddp [] 1) (.reg 1)).orderable true = true ∧
      (datum (s0 [one, minusInf]) (.faddp [] 1) (.reg 0)).orderable true = true ∧
      (datum (s0 [one, minusInf]) (.faddp [] 1) (.reg 1)).cls = .infinity ∧
      ¬Indeterminate .add (datum (s0 [one, minusInf]) (.faddp [] 1) (.reg 1))
        (datum (s0 [one, minusInf]) (.faddp [] 1) (.reg 0))) ∧
    (arithForm (.fdivM32r [] m100) = some ⟨.div, .reg 0, .mem (.real single), 0, 0⟩ ∧
      operable (mem 4 0x7F800000 (s0 [one])) (.fdivM32r [] m100) = true ∧
      (datum (mem 4 0x7F800000 (s0 [one])) (.fdivM32r [] m100) (.reg 0)).orderable true = true ∧
      (datum (mem 4 0x7F800000 (s0 [one])) (.fdivM32r [] m100) (.mem (.real single))).cls = .infinity ∧
      ¬Indeterminate .div (datum (mem 4 0x7F800000 (s0 [one])) (.fdivM32r [] m100) (.reg 0))
        (datum (mem 4 0x7F800000 (s0 [one])) (.fdivM32r [] m100) (.mem (.real single)))) := by
  unfold Indeterminate
  refine ⟨⟨rfl, by decide, ⟨by decide, by decide, fun h => nomatch h⟩, ?_⟩,
    ⟨rfl, by decide, by decide, by decide, by decide, by decide⟩, rfl, ?_, ?_, ?_, ?_⟩
  · change val ((s0 [one, one]).npx.st 0) - val ((s0 [one, one]).npx.st 1) = 0
    rw [show (s0 [one, one]).npx.st 0 = one by decide, show (s0 [one, one]).npx.st 1 = one by decide, sub_self]
  all_goals decide +kernel

/-- Quiet and signaling NaNs with IE masked, in registers and memory; a signaling one and an unsupported pattern with IE
masked and unmasked. -/
theorem witness_NanOperandsGiveQuietNans :
    [(s0 [one, qnan], Instr.faddp [] 1, Class.qnan), (s0 [0x7FFF8000000000000001, qnan], .fpatan [], .snan),
      (mem 4 0x7F800001 (s0 [one]), .fdivrM32r [] m100, .snan), (cw 0x037E (s0 [0x7FFF8000000000000001]), .fsqrt [], .snan),
      (s0 [one, 0x3FFF0000000000000001], .fprem [], .unsupported),
      (cw 0x037E (s0 [0x3FFF0000000000000001]), .fsin [], .unsupported)].all (fun q =>
        (computes q.2.1).any (fun f => operable q.1 q.2.1 && !f.hasEmpty q.1 q.2.1 && f.hasClass q.1 q.2.1 q.2.2 &&
          (q.2.2 == .unsupported || !f.hasClass q.1 q.2.1 .unsupported))) = true ∧
    (s0 []).npx.cw.im = true ∧ (cw 0x037E (s0 [])).npx.cw.im = false := by
  refine ⟨?_, ?_, ?_⟩ <;> decide +kernel

/-- 1/0 masked and unmasked, from a register and from memory; 0/0, infinity minus infinity. -/
theorem witness_DivisionByZeroAndIndeterminateForms :
    (arithForm (.fdivStSti [] 1) = some ⟨.div, .reg 0, .reg 1, 0, 0⟩ ∧ operable (s0 [one, 0]) (.fdivStSti [] 1) = true ∧
      (datum (s0 [one, 0]) (.fdivStSti [] 1) (.reg 0)).number true = true ∧
      (datum (s0 [one, 0]) (.fdivStSti [] 1) (.reg 0)).value ≠ 0 ∧
      (datum (s0 [one, 0]) (.fdivStSti [] 1) (.reg 1)).number true = true ∧
      (datum (s0 [one, 0]) (.fdivStSti [] 1) (.reg 1)).cls = .zero ∧ (s0 [one, 0]).npx.cw.zm = true) ∧
    (arithForm (.fidivM16i [] m100) = some ⟨.div, .reg 0, .mem (.int 2), 0, 0⟩ ∧
      operable (cw 0x037B (s0 [one])) (.fidivM16i [] m100) = true ∧
      (datum (cw 0x037B (s0 [one])) (.fidivM16i [] m100) (.reg 0)).value ≠ 0 ∧
      (datum (cw 0x037B (s0 [one])) (.fidivM16i [] m100) (.mem (.int 2))).cls = .zero ∧
      (cw 0x037B (s0 [one])).npx.cw.zm = false) ∧
    (operable (s0 [0, 0]) (.fdivStSti [] 1) = true ∧ (datum (s0 [0, 0]) (.fdivStSti [] 1) (.reg 1)).empty = false ∧
      Indeterminate .div (datum (s0 [0, 0]) (.fdivStSti [] 1) (.reg 0)) (datum (s0 [0, 0]) (.fdivStSti [] 1) (.reg 1)) ∧
      (s0 [0, 0]).npx.cw.im = true) ∧
    (arithForm (.fsubp [] 1) = some ⟨.sub, .reg 1, .reg 0, 1, 1⟩ ∧
      operable (cw 0x037E (s0 [inf, inf])) (.fsubp [] 1) = true ∧
      Indeterminate .sub (datum (cw 0x037E (s0 [inf, inf])) (.fsubp [] 1) (.reg 1))
        (datum (cw 0x037E (s0 [inf, inf])) (.fsubp [] 1) (.reg 0)) ∧
      (cw 0x037E (s0 [inf, inf])).npx.cw.im = false) := by
  unfold Indeterminate
  refine ⟨⟨rfl, by decide, by decide, ?_, by decide, by decide, by decide⟩,
    ⟨rfl, by decide, ?_, by decide +kernel, by decide⟩, ⟨by decide, by decide, .inr ⟨by decide, by decide⟩, by decide⟩,
    rfl, by decide, ⟨by decide, by decide, by decide⟩, by decide⟩
  · change val ((s0 [one, 0]).npx.st 0) ≠ 0
    rw [show (s0 [one, 0]).npx.st 0 = one by decide, val_one]; exact one_ne_zero
  · change val ((cw 0x037B (s0 [one])).npx.st 0) ≠ 0
    rw [show (cw 0x037B (s0 [one])).npx.st 0 = one by decide, val_one]; exact one_ne_zero

/-- 2^16383 * 2, the first overflow: infinity to nearest, and chopped in each of the three precisions. -/
theorem witness_MaskedOverflowTable :
    [0x037F, 0x0C7F, 0x0E7F, 0x0F7F].all (fun w => (ControlWord.ofBits w).om) = true ∧
    (MulMeets 0x037F huge two (16383 + 1) ∧ (ControlWord.ofBits 0x037F).rc = 0) ∧
    (MulMeets 0x0C7F huge two (16383 + 1) ∧ (ControlWord.ofBits 0x0C7F).rc = 3 ∧ (ControlWord.ofBits 0x0C7F).pc = 0) ∧
    (MulMeets 0x0E7F huge two (16383 + 1) ∧ (ControlWord.ofBits 0x0E7F).rc = 3 ∧ (ControlWord.ofBits 0x0E7F).pc = 2) ∧
    (MulMeets 0x0F7F huge two (16383 + 1) ∧ (ControlWord.ofBits 0x0F7F).rc = 3 ∧ (ControlWord.ofBits 0x0F7F).pc = 3) ∧
    (2 : ℚ) ^ (16384 : ℤ) ≤ |(2 : ℚ) ^ (16383 + 1 : ℤ)| := by
  refine ⟨by decide, ⟨mulMeets _ _ _ _ _ ?_ ?_ ?_ ?_ ?_ val_huge pow_two, ?_⟩,
    ⟨mulMeets _ _ _ _ _ ?_ ?_ ?_ ?_ ?_ val_huge pow_two, ?_, ?_⟩,
    ⟨mulMeets _ _ _ _ _ ?_ ?_ ?_ ?_ ?_ val_huge pow_two, ?_, ?_⟩,
    ⟨mulMeets _ _ _ _ _ ?_ ?_ ?_ ?_ ?_ val_huge pow_two, ?_, ?_⟩, pow2_le (by decide)⟩ <;> decide

/-- 2^-16382 * 0.5, in the greatest binade below the smallest normal number, and 2^-16382 * 2^-16382. -/
theorem witness_MaskedUnderflowDenormalizes :
    (MulMeets 0x037F tiny half (-16382 + -1) ∧ |(2 : ℚ) ^ (-16382 + -1 : ℤ)| < (2 : ℚ) ^ (-16382 : ℤ)) ∧
      (MulMeets 0x037F tiny tiny (-16382 + -16382) ∧
        |(2 : ℚ) ^ (-16382 + -16382 : ℤ)| < (2 : ℚ) ^ (-16382 : ℤ)) ∧ (ControlWord.ofBits 0x037F).um = true :=
  ⟨⟨mulMeets _ _ _ _ _ (by decide) (by decide) (by decide) (by decide) (by decide) val_tiny pow_half, pow2_lt (by decide)⟩,
    ⟨mulMeets _ _ _ _ _ (by decide) (by decide) (by decide) (by decide) (by decide) val_tiny val_tiny,
      pow2_lt (by decide)⟩, by decide⟩

/-- 2^16383 * 2 with OE unmasked, 2^-16382 * 0.5 with UE unmasked. -/
theorem witness_UnmaskedOverflowAndUnderflow :
    (MulMeets 0x0377 huge two (16383 + 1) ∧ (ControlWord.ofBits 0x0377).om = false ∧
      (2 : ℚ) ^ (16384 : ℤ) ≤ |(2 : ℚ) ^ (16383 + 1 : ℤ)|) ∧
    (MulMeets 0x036F tiny half (-16382 + -1) ∧ (ControlWord.ofBits 0x036F).um = false ∧
      |(2 : ℚ) ^ (-16382 + -1 : ℤ)| < (2 : ℚ) ^ (-16382 : ℤ)) :=
  ⟨⟨mulMeets _ _ _ _ _ (by decide) (by decide) (by decide) (by decide) (by decide) val_huge pow_two, by decide,
      pow2_le (by decide)⟩,
    mulMeets _ _ _ _ _ (by decide) (by decide) (by decide) (by decide) (by decide) val_tiny pow_half, by decide,
      pow2_lt (by decide)⟩

/-- A positive number, a denormal with DE masked and unmasked, a zero, a negative number masked and unmasked. -/
theorem witness_SquareRootRoundsCorrectly :
    (operable (s0 [two]) (.fsqrt []) = true ∧ (s0 [two]).npx.empty 0 = false ∧
      finite ((s0 [two]).npx.st 0) = true ∧ usable (s0 [two]).npx.cw.dm ((s0 [two]).npx.st 0) = true ∧
      0 < val ((s0 [two]).npx.st 0)) ∧
    (operable (s0 [1]) (.fsqrt []) = true ∧ usable (s0 [1]).npx.cw.dm ((s0 [1]).npx.st 0) = true ∧
      classOf ((s0 [1]).npx.st 0) = .denormal ∧ 0 < val ((s0 [1]).npx.st 0)) ∧
    (operable (cw 0x037D (s0 [1])) (.fsqrt []) = true ∧ finite ((cw 0x037D (s0 [1])).npx.st 0) = true ∧
      usable (cw 0x037D (s0 [1])).npx.cw.dm ((cw 0x037D (s0 [1])).npx.st 0) = false ∧
      0 < val ((cw 0x037D (s0 [1])).npx.st 0)) ∧
    (operable (s0 [0]) (.fsqrt []) = true ∧ finite ((s0 [0]).npx.st 0) = true ∧ val ((s0 [0]).npx.st 0) = 0) ∧
    (operable (s0 [minusOne]) (.fsqrt []) = true ∧ finite ((s0 [minusOne]).npx.st 0) = true ∧
      val ((s0 [minusOne]).npx.st 0) < 0 ∧ (s0 [minusOne]).npx.cw.im = true) ∧
    (operable (cw 0x037E (s0 [minusOne])) (.fsqrt []) = true ∧ (cw 0x037E (s0 [minusOne])).npx.cw.im = false) := by
  have h : (s0 [two]).npx.st 0 = two := by decide
  have d : (s0 [1]).npx.st 0 = 1 := by decide
  have e : (cw 0x037D (s0 [1])).npx.st 0 = 1 := by decide
  have z : (s0 [0]).npx.st 0 = 0 := by decide
  have n : (s0 [minusOne]).npx.st 0 = minusOne := by decide
  rw [h, d, e, z, n, val_two, val_zero, val_minusOne]
  exact ⟨⟨by decide, by decide, by decide, by decide, by norm_num⟩, ⟨by decide, by decide, by decide, val_least_pos⟩,
    ⟨by decide, by decide, by decide, val_least_pos⟩, ⟨by decide, by decide, rfl⟩,
    ⟨by decide, by decide, by norm_num, by decide⟩, by decide, by decide⟩

theorem witness_SignOperations :
    (operable (s0 [minusOne]) (.fabs []) = true ∧ (s0 [minusOne]).npx.empty 0 = false) ∧
      (operable (s0 [one]) (.fchs []) = true ∧ true = !((s0 [one]).npx.st 0).getLsbD 79) ∧
      (operable (s0 []) (.fabs []) = true ∧ (s0 []).npx.empty 0 = true ∧ (s0 []).npx.cw.im = true) ∧
      (operable (cw 0x037E (s0 [])) (.fchs []) = true ∧ (cw 0x037E (s0 [])).npx.empty 0 = true ∧
        (cw 0x037E (s0 [])).npx.cw.im = false) := by decide +kernel

/-- A number, and a denormal with DE masked and unmasked. -/
theorem witness_RoundToInteger :
    (operable (s0 [half]) (.frndint []) = true ∧ (s0 [half]).npx.empty 0 = false ∧
      finite ((s0 [half]).npx.st 0) = true ∧ usable (s0 [half]).npx.cw.dm ((s0 [half]).npx.st 0) = true) ∧
    (operable (s0 [1]) (.frndint []) = true ∧ usable (s0 [1]).npx.cw.dm ((s0 [1]).npx.st 0) = true) ∧
    (operable (cw 0x037D (s0 [1])) (.frndint []) = true ∧ finite ((cw 0x037D (s0 [1])).npx.st 0) = true ∧
      usable (cw 0x037D (s0 [1])).npx.cw.dm ((cw 0x037D (s0 [1])).npx.st 0) = false) := by decide +kernel

theorem witness_ScaleIsExact :
    operable (s0 [one, two]) (.fscale []) = true ∧ (s0 [one, two]).npx.empty 0 = false ∧
      (s0 [one, two]).npx.empty 1 = false ∧ usable (s0 [one, two]).npx.cw.dm ((s0 [one, two]).npx.st 0) = true ∧
      usable (s0 [one, two]).npx.cw.dm ((s0 [one, two]).npx.st 1) = true ∧
      IsRounding 3 (val ((s0 [one, two]).npx.st 1)) 0 ((2 : ℤ) : ℚ) ∧
      (2 : ℚ) ^ (-16382 : ℤ) ≤ |val ((s0 [one, two]).npx.st 0) * (2 : ℚ) ^ (2 : ℤ)| ∧
      |val ((s0 [one, two]).npx.st 0) * (2 : ℚ) ^ (2 : ℤ)| < (2 : ℚ) ^ (16384 : ℤ) := by
  have h0 : (s0 [one, two]).npx.st 0 = one := by decide
  have h1 : (s0 [one, two]).npx.st 1 = two := by decide
  rw [h0, h1, val_one, val_two]
  refine ⟨by decide, by decide, by decide, by decide, by decide, rounding_int 3 2,
    (inRange_of (v := 1 * (2 : ℚ) ^ (2 : ℤ)) (by norm_num) (by norm_num)).1, ?_⟩
  exact ((inRange_of (v := 1 * (2 : ℚ) ^ (2 : ℤ)) (by norm_num) (by norm_num)).2).trans_le
    (zpow_le_zpow_right₀ (by norm_num) (by norm_num))

/-- ST(0) = 2^a scaled by ST(1) = n under the control word w. -/
def ScaleMeets (w : BitVec 16) (x y : Ext) (a n : ℤ) : Prop :=
  operable (cw w (s0 [x, y])) (.fscale []) = true ∧ (cw w (s0 [x, y])).npx.empty 0 = false ∧
    (cw w (s0 [x, y])).npx.empty 1 = false ∧
    usable (cw w (s0 [x, y])).npx.cw.dm ((cw w (s0 [x, y])).npx.st 0) = true ∧
    usable (cw w (s0 [x, y])).npx.cw.dm ((cw w (s0 [x, y])).npx.st 1) = true ∧
    IsRounding 3 (val ((cw w (s0 [x, y])).npx.st 1)) 0 (n : ℚ) ∧
    val ((cw w (s0 [x, y])).npx.st 0) * (2 : ℚ) ^ n = (2 : ℚ) ^ (a + n)

theorem scaleMeets (w : BitVec 16) (x y : Ext) (a n : ℤ) (o : operable (cw w (s0 [x, y])) (.fscale []) = true)
    (e : ((cw w (s0 [x, y])).npx.empty 0 || (cw w (s0 [x, y])).npx.empty 1) = false)
    (hx : (cw w (s0 [x, y])).npx.st 0 = x) (hy : (cw w (s0 [x, y])).npx.st 1 = y)
    (u : (usable (cw w (s0 [x, y])).npx.cw.dm x && usable (cw w (s0 [x, y])).npx.cw.dm y) = true)
    (vx : val x = (2 : ℚ) ^ a) (vy : val y = (n : ℚ)) : ScaleMeets w x y a n := by
  unfold ScaleMeets
  rw [hx, hy, vx, vy, zpow_add₀ two_ne_zero]
  simp only [Bool.or_eq_false_iff, Bool.and_eq_true] at e u
  exact ⟨o, e.1, e.2, u.1, u.2, rounding_int 3 n, rfl⟩

theorem val_minus_pow2 (x : Ext) (e : ℤ) (hs : signOf x = true) (hm : sig x = 2 ^ 63) (he : 1 ≤ bexp x)
    (hb : (bexp x : ℤ) - 16383 = e) : val x = -(2 : ℚ) ^ e := by
  have h : ((max (bexp x) 1 : Nat) : ℤ) = bexp x := by omega
  unfold val
  rw [hs, hm, h, show ((bexp x : ℤ) - 16446) = e - 63 by omega, zpow_sub₀ two_ne_zero]
  norm_num
  field_simp

/-- 2^15 and -2^15. -/
def two15 : Ext := 0x400E8000000000000000
def minusTwo15 : Ext := 0xC00E8000000000000000
theorem val_two15 : val two15 = ((2 ^ 15 : ℤ) : ℚ) := by
  rw [val_of two15 15 (by decide) (by decide) (by decide) (by decide)]; norm_num
theorem val_minusTwo15 : val minusTwo15 = ((-2 ^ 15 : ℤ) : ℚ) := by
  rw [val_minus_pow2 minusTwo15 15 (by decide) (by decide) (by decide) (by decide)]; norm_num
theorem int_one : val one = ((1 : ℤ) : ℚ) := by rw [val_one]; norm_num
theorem int_minusOne : val minusOne = ((-1 : ℤ) : ℚ) := by rw [val_minusOne]; norm_num

/-- 2^16384, the first overflow, to nearest, chopped and unmasked; 2^40959, the last power of two whose adjusted result is in
range, and 2^40960, the first massive overflow; 2^-16383 masked and unmasked, 2^-40958, the last whose adjusted result is in
range, and 2^-40959, the first massive underflow. -/
theorem witness_ScaleOverflowAndUnderflow :
    (ScaleMeets 0x037F huge one 16383 1 ∧ (ControlWord.ofBits 0x037F).om = true ∧ (ControlWord.ofBits 0x037F).rc = 0) ∧
    (ScaleMeets 0x0F7F huge one 16383 1 ∧ (ControlWord.ofBits 0x0F7F).om = true ∧ (ControlWord.ofBits 0x0F7F).rc = 3) ∧
    (2 : ℚ) ^ (16384 : ℤ) ≤ |(2 : ℚ) ^ (16383 + 1 : ℤ)| ∧
    (ControlWord.ofBits 0x0377).om = false ∧
    (ScaleMeets 0x0377 0x5FFE8000000000000000 two15 8191 (2 ^ 15) ∧
      (2 : ℚ) ^ (16384 : ℤ) ≤ |(2 : ℚ) ^ (8191 + 2 ^ 15 : ℤ)| ∧
      |(2 : ℚ) ^ (8191 + 2 ^ 15 : ℤ)| < (2 : ℚ) ^ (16384 + 24576 : ℤ)) ∧
    (ScaleMeets 0x0377 0x5FFF8000000000000000 two15 8192 (2 ^ 15) ∧
      (2 : ℚ) ^ (16384 + 24576 : ℤ) ≤ |(2 : ℚ) ^ (8192 + 2 ^ 15 : ℤ)|) ∧
    (ScaleMeets 0x037F tiny minusOne (-16382) (-1) ∧ |(2 : ℚ) ^ (-16382 + -1 : ℤ)| < (2 : ℚ) ^ (-16382 : ℤ) ∧
      (ControlWord.ofBits 0x037F).um = true) ∧
    (ScaleMeets 0x036F tiny minusOne (-16382) (-1) ∧ (ControlWord.ofBits 0x036F).um = false) ∧
    (ScaleMeets 0x036F 0x20018000000000000000 minusTwo15 (-8190) (-2 ^ 15) ∧
      (2 : ℚ) ^ (-16382 - 24576 : ℤ) ≤ |(2 : ℚ) ^ (-8190 + -2 ^ 15 : ℤ)|) ∧
    (ScaleMeets 0x036F 0x20008000000000000000 minusTwo15 (-8191) (-2 ^ 15) ∧
      |(2 : ℚ) ^ (-8191 + -2 ^ 15 : ℤ)| < (2 : ℚ) ^ (-16382 - 24576 : ℤ)) := by
  refine ⟨⟨scaleMeets _ _ _ _ _ ?_ ?_ ?_ ?_ ?_ val_huge int_one, ?_, ?_⟩,
    ⟨scaleMeets _ _ _ _ _ ?_ ?_ ?_ ?_ ?_ val_huge int_one, ?_, ?_⟩, pow2_le ?_, ?_,
    ⟨scaleMeets _ _ _ _ _ ?_ ?_ ?_ ?_ ?_ (val_of _ _ ?_ ?_ ?_ ?_) val_two15, pow2_le ?_, pow2_lt ?_⟩,
    ⟨scaleMeets _ _ _ _ _ ?_ ?_ ?_ ?_ ?_ (val_of _ _ ?_ ?_ ?_ ?_) val_two15, pow2_le ?_⟩,
    ⟨scaleMeets _ _ _ _ _ ?_ ?_ ?_ ?_ ?_ val_tiny int_minusOne, pow2_lt ?_, ?_⟩,
    ⟨scaleMeets _ _ _ _ _ ?_ ?_ ?_ ?_ ?_ val_tiny int_minusOne, ?_⟩,
    ⟨scaleMeets _ _ _ _ _ ?_ ?_ ?_ ?_ ?_ (val_of _ _ ?_ ?_ ?_ ?_) val_minusTwo15, pow2_le ?_⟩,
    ⟨scaleMeets _ _ _ _ _ ?_ ?_ ?_ ?_ ?_ (val_of _ _ ?_ ?_ ?_ ?_) val_minusTwo15, pow2_lt ?_⟩⟩ <;> decide

/-- 4 by 2, quotient 2, under both instructions. -/
theorem witness_CompleteRemainderIsExact :
    operable (s0 [four, two]) (.fprem []) = true ∧ operable (s0 [four, two]) (.fprem1 []) = true ∧
      (s0 [four, two]).npx.empty 0 = false ∧ (s0 [four, two]).npx.empty 1 = false ∧
      usable (s0 [four, two]).npx.cw.dm ((s0 [four, two]).npx.st 0) = true ∧
      usable (s0 [four, two]).npx.cw.dm ((s0 [four, two]).npx.st 1) = true ∧
      val ((s0 [four, two]).npx.st 0) ≠ 0 ∧ val ((s0 [four, two]).npx.st 1) ≠ 0 ∧
      Int.log 2 |val ((s0 [four, two]).npx.st 0)| - Int.log 2 |val ((s0 [four, two]).npx.st 1)| < 64 ∧
      IsRounding 3 (val ((s0 [four, two]).npx.st 0) / val ((s0 [four, two]).npx.st 1)) 0 ((2 : ℤ) : ℚ) ∧
      IsRounding 0 (val ((s0 [four, two]).npx.st 0) / val ((s0 [four, two]).npx.st 1)) 0 ((2 : ℤ) : ℚ) := by
  have h0 : (s0 [four, two]).npx.st 0 = four := by decide
  have h1 : (s0 [four, two]).npx.st 1 = two := by decide
  rw [h0, h1, val_two, val_four]
  have l4 : Int.log 2 (4 : ℚ) = 2 := by
    rw [show (4 : ℚ) = ((2 : ℕ) : ℚ) ^ (2 : ℤ) by norm_num]; exact Int.log_zpow (by norm_num) 2
  have l2 : Int.log 2 (2 : ℚ) = 1 := by
    rw [show (2 : ℚ) = ((2 : ℕ) : ℚ) ^ (1 : ℤ) by norm_num]; exact Int.log_zpow (by norm_num) 1
  have q : (4 / 2 : ℚ) = ((2 : ℤ) : ℚ) := by norm_num
  refine ⟨by decide, by decide, by decide, by decide, by decide, by decide, by norm_num, by norm_num, ?_,
    q ▸ rounding_int 3 2, q ▸ rounding_int 0 2⟩
  rw [abs_of_pos (by norm_num), abs_of_pos (by norm_num), l4, l2]; norm_num

/-- 2^-16383, a denormal, by 1 with UE unmasked: the remainder is the dividend, and underflows. -/
theorem witness_CompleteRemainderIsExact_underflow :
    (let s := cw 0x036F (s0 [0x00004000000000000000, one])
     operable s (.fprem []) = true ∧ s.npx.empty 0 = false ∧ s.npx.empty 1 = false ∧
      usable s.npx.cw.dm (s.npx.st 0) = true ∧ usable s.npx.cw.dm (s.npx.st 1) = true ∧ s.npx.cw.um = false ∧
      s.npx.st 0 = 0x00004000000000000000 ∧ s.npx.st 1 = one) ∧
    val 0x00004000000000000000 = (2 : ℚ) ^ (-16383 : ℤ) ∧
    (2 : ℚ) ^ (-16383 : ℤ) ≠ 0 ∧ Int.log 2 |(2 : ℚ) ^ (-16383 : ℤ)| - Int.log 2 |(1 : ℚ)| < 64 ∧
    IsRounding 3 ((2 : ℚ) ^ (-16383 : ℤ) / 1) 0 ((0 : ℤ) : ℚ) ∧ |(2 : ℚ) ^ (-16383 : ℤ)| < (2 : ℚ) ^ (-16382 : ℤ) := by
  have p : (0 : ℚ) < (2 : ℚ) ^ (-16383 : ℤ) := zpow_pos two_pos _
  refine ⟨by decide +kernel, ?_, p.ne', ?_, ⟨⟨0, by norm_num⟩, ?_⟩, pow2_lt (by decide)⟩
  · have h : bexp 0x00004000000000000000 = 0 := by decide
    have g : signOf 0x00004000000000000000 = false := by decide
    have m : sig 0x00004000000000000000 = 2 ^ 62 := by decide
    unfold val
    rw [h, g, m, show ((max 0 1 : Nat) : ℤ) - 16446 = -16383 - 62 by norm_num, zpow_sub₀ two_ne_zero]
    norm_num
    field_simp
  · rw [abs_of_pos p, abs_one, Int.log_one_right,
      show (2 : ℚ) ^ (-16383 : ℤ) = ((2 : ℕ) : ℚ) ^ (-16383 : ℤ) by norm_num, Int.log_zpow (by norm_num)]
    norm_num
  · have l : (2 : ℚ) ^ (-16383 : ℤ) < 1 := zpow_lt_one_of_neg₀ (by norm_num) (by norm_num)
    change |((0 : ℤ) : ℚ)| ≤ |(2 : ℚ) ^ (-16383 : ℤ) / 1| ∧
      |(2 : ℚ) ^ (-16383 : ℤ) / 1| < |((0 : ℤ) : ℚ)| + (2 : ℚ) ^ (0 : ℤ) ∧ 0 ≤ ((0 : ℤ) : ℚ) * ((2 : ℚ) ^ (-16383 : ℤ) / 1)
    rw [div_one, abs_of_pos p, Int.cast_zero, abs_zero, zero_mul, zero_add, zpow_zero]
    exact ⟨p.le, l, le_refl _⟩

/-- 2^100 by 1. -/
theorem witness_IncompleteRemainderReduces :
    operable (s0 [two100, one]) (.fprem []) = true ∧ operable (s0 [two100, one]) (.fprem1 []) = true ∧
      (s0 [two100, one]).npx.empty 0 = false ∧ (s0 [two100, one]).npx.empty 1 = false ∧
      usable (s0 [two100, one]).npx.cw.dm ((s0 [two100, one]).npx.st 0) = true ∧
      usable (s0 [two100, one]).npx.cw.dm ((s0 [two100, one]).npx.st 1) = true ∧
      val ((s0 [two100, one]).npx.st 0) ≠ 0 ∧ val ((s0 [two100, one]).npx.st 1) ≠ 0 ∧
      64 ≤ Int.log 2 |val ((s0 [two100, one]).npx.st 0)| - Int.log 2 |val ((s0 [two100, one]).npx.st 1)| := by
  have h0 : (s0 [two100, one]).npx.st 0 = two100 := by decide
  have h1 : (s0 [two100, one]).npx.st 1 = one := by decide
  rw [h0, h1, val_two100, val_one]
  refine ⟨by decide, by decide, by decide, by decide, by decide, by decide, by positivity, one_ne_zero, ?_⟩
  rw [abs_of_pos (by positivity), abs_one, Int.log_one_right,
    show (2 : ℚ) ^ (100 : ℤ) = ((2 : ℕ) : ℚ) ^ (100 : ℤ) by norm_num, Int.log_zpow (by norm_num) 100]
  norm_num

/-- A number, a denormal with DE masked and unmasked, and a zero with ZE masked and unmasked. -/
theorem witness_ExtractSplitsTheNumber :
    (operable (s0 [four]) (.fxtract []) = true ∧ (s0 [four]).npx.empty 0 = false ∧ (s0 [four]).npx.full = false ∧
      finite ((s0 [four]).npx.st 0) = true ∧ usable (s0 [four]).npx.cw.dm ((s0 [four]).npx.st 0) = true ∧
      val ((s0 [four]).npx.st 0) ≠ 0) ∧
    (operable (s0 [1]) (.fxtract []) = true ∧ usable (s0 [1]).npx.cw.dm ((s0 [1]).npx.st 0) = true ∧
      val ((s0 [1]).npx.st 0) ≠ 0) ∧
    (operable (cw 0x037D (s0 [1])) (.fxtract []) = true ∧
      usable (cw 0x037D (s0 [1])).npx.cw.dm ((cw 0x037D (s0 [1])).npx.st 0) = false ∧
      val ((cw 0x037D (s0 [1])).npx.st 0) ≠ 0) ∧
    (operable (s0 [0]) (.fxtract []) = true ∧ val ((s0 [0]).npx.st 0) = 0 ∧ (s0 [0]).npx.cw.zm = true) ∧
    (operable (cw 0x037B (s0 [0])) (.fxtract []) = true ∧ (cw 0x037B (s0 [0])).npx.cw.zm = false) := by
  have h : (s0 [four]).npx.st 0 = four := by decide
  have d : (s0 [1]).npx.st 0 = 1 := by decide
  have e : (cw 0x037D (s0 [1])).npx.st 0 = 1 := by decide
  have z : (s0 [0]).npx.st 0 = 0 := by decide
  rw [h, d, e, z, val_four, val_zero]
  exact ⟨⟨by decide, by decide, by decide, by decide, by decide, by norm_num⟩,
    ⟨by decide, by decide, val_least_pos.ne'⟩, ⟨by decide, by decide, val_least_pos.ne'⟩,
    ⟨by decide, rfl, by decide⟩, by decide, by decide⟩

/-- Below 1, between 1 and 2^63, and at 2^63. -/
theorem witness_TrigonometricInstructions :
    (operable (s0 [half]) (.fsin []) = true ∧ (s0 [half]).npx.empty 0 = false ∧ (s0 [half]).npx.full = false ∧
      usable (s0 [half]).npx.cw.dm ((s0 [half]).npx.st 0) = true ∧ |val ((s0 [half]).npx.st 0)| < 1) ∧
    (operable (s0 [four]) (.fptan []) = true ∧ operable (s0 [four]) (.fsincos []) = true ∧ (s0 [four]).npx.full = false ∧
      |val ((s0 [four]).npx.st 0)| < (2 : ℚ) ^ (63 : ℤ)) ∧
    (operable (s0 [two63]) (.fcos []) = true ∧ usable (s0 [two63]).npx.cw.dm ((s0 [two63]).npx.st 0) = true ∧
      (2 : ℚ) ^ (63 : ℤ) ≤ |val ((s0 [two63]).npx.st 0)|) := by
  have a : (s0 [half]).npx.st 0 = half := by decide
  have b : (s0 [four]).npx.st 0 = four := by decide
  have c : (s0 [two63]).npx.st 0 = two63 := by decide
  rw [a, b, c, val_half, val_four, val_two63]
  exact ⟨⟨by decide, by decide, by decide, by decide, by norm_num [abs_of_pos]⟩,
    ⟨by decide, by decide, by decide, by norm_num⟩, by decide, by decide, by norm_num⟩

theorem witness_TrigonometricInstructions_sincos :
    (s0 [one]).npx.empty 0 = false ∧ (s0 [one]).npx.full = false ∧
      usable (s0 [one]).npx.cw.dm ((s0 [one]).npx.st 0) = true ∧ |val ((s0 [one]).npx.st 0)| < (2 : ℚ) ^ (63 : ℤ) ∧
      operable (s0 [one]) (.fsincos []) = true ∧ ∃ t u v, exec (.fsincos []) (s0 [one]) = .next t ∧
        exec (.fsin []) (s0 [one]) = .next u ∧ exec (.fcos []) (s0 [one]) = .next v := by
  have h : (s0 [one]).npx.st 0 = one := by decide
  rw [h, val_one]
  exact ⟨by decide, by decide, by decide, by norm_num, by decide, _, _, _, rfl, rfl, rfl⟩

/-- FPATAN and FYL2X of 4.0 with ST(1) = 2.0, FYL2XP1 of 0; F2XM1 at 0, 1 and -1. -/
theorem witness_LogarithmsAndArctangent :
    (operable (s0 [four, two]) (.fpatan []) = true ∧ operable (s0 [four, two]) (.fyl2x []) = true ∧
      0 < val ((s0 [four, two]).npx.st 0) ∧ (s0 [four, two]).npx.empty 0 = false ∧ (s0 [four, two]).npx.empty 1 = false ∧
      usable (s0 [four, two]).npx.cw.dm ((s0 [four, two]).npx.st 0) = true ∧
      usable (s0 [four, two]).npx.cw.dm ((s0 [four, two]).npx.st 1) = true ∧
      val ((s0 [four, two]).npx.st 0) = (2 : ℚ) ^ (2 : ℤ) ∧
      InRange (((2 : ℤ) : ℚ) * val ((s0 [four, two]).npx.st 1))) ∧
    (operable (s0 [0, one]) (.fyl2xp1 []) = true ∧ InLogRange ((s0 [0, one]).npx.st 0)) ∧
    (operable (s0 [0]) (.f2xm1 []) = true ∧ (s0 [0]).npx.empty 0 = false ∧
      usable (s0 [0]).npx.cw.dm ((s0 [0]).npx.st 0) = true ∧ val ((s0 [0]).npx.st 0) = 0) ∧
    (operable (s0 [one]) (.f2xm1 []) = true ∧ val ((s0 [one]).npx.st 0) = 1 ∧ |val ((s0 [one]).npx.st 0)| ≤ 1) ∧
    (operable (s0 [minusOne]) (.f2xm1 []) = true ∧ val ((s0 [minusOne]).npx.st 0) = -1) := by
  have a : (s0 [four, two]).npx.st 0 = four := by decide
  have b : (s0 [four, two]).npx.st 1 = two := by decide
  have c : (s0 [0, one]).npx.st 0 = 0 := by decide
  have d : (s0 [0]).npx.st 0 = 0 := by decide
  have e : (s0 [one]).npx.st 0 = one := by decide
  have f : (s0 [minusOne]).npx.st 0 = minusOne := by decide
  unfold InLogRange
  rw [a, b, c, d, e, f, val_four, val_two, val_zero, val_one, val_minusOne]
  exact ⟨⟨by decide, by decide, by norm_num, by decide, by decide, by decide, by decide, by norm_num,
    inRange_of (by norm_num) (by norm_num)⟩, ⟨by decide, by norm_num, by norm_num⟩, ⟨by decide, by decide, by decide, rfl⟩,
    ⟨by decide, rfl, by norm_num⟩, by decide, rfl⟩

/-- An operand pair that meets what is asked of special operands, in the row given, under the control word w. -/
def specialMeets (w : BitVec 16) (i : Instr) (x y : Ext) (r : SpecialRow Ext) : Bool :=
  let s := cw w (s0 [x, y])
  match computes i with
  | none => false
  | some f =>
    operable s i && !f.hasEmpty s i && !f.hasClass s i .unsupported && !f.hasClass s i .snan && !f.hasClass s i .qnan &&
      decide (specialRow i (s.npx.st 0) (s.npx.st 1) = some r)

/-- Every kind of row of every instruction, with its exception masked and unmasked. -/
theorem witness_SpecialOperandRows :
    [(Instr.fsqrt [], inf, one, SpecialRow.value inf), (.fsqrt [], minusInf, one, .invalid qnan),
      (.frndint [], minusInf, one, .value minusInf), (.frndint [], 0, one, .value 0),
      (.fscale [], 0, inf, .invalid qnan), (.fscale [], inf, minusInf, .invalid qnan),
      (.fscale [], minusOne, inf, .value minusInf), (.fscale [], one, minusInf, .value 0),
      (.fscale [], inf, one, .value inf), (.fprem [], inf, one, .invalid qnan), (.fprem1 [], one, 0, .invalid qnan),
      (.fprem [], one, inf, .value one), (.fprem1 [], 0, one, .value 0), (.fsin [], inf, one, .invalid qnan),
      (.fsin [], 0, one, .value 0), (.fcos [], inf, one, .invalid qnan), (.fcos [], 0, one, .value one),
      (.fpatan [], one, 0, .value 0), (.fpatan [], inf, one, .value 0), (.f2xm1 [], 0, one, .value 0),
      (.f2xm1 [], minusOne, one, .value 0xBFFE8000000000000000), (.fyl2x [], minusOne, one, .invalid qnan),
      (.fyl2x [], 0, 0, .invalid qnan), (.fyl2x [], inf, 0, .invalid qnan), (.fyl2x [], one, inf, .invalid qnan),
      (.fyl2x [], 0, inf, .value minusInf), (.fyl2x [], 0, two, .zeroDivide minusInf), (.fyl2x [], inf, two, .value inf),
      (.fyl2x [], one, two, .value 0), (.fyl2xp1 [], 0, inf, .invalid qnan), (.fyl2xp1 [], 0, two, .value 0)].all
        (fun q => [0x037F, 0x037E, 0x037B].all fun w => specialMeets w q.1 q.2.1 q.2.2.1 q.2.2.2) = true ∧
    (specialMeets 0x037F (.fyl2xp1 []) 0x3FFD8000000000000000 inf (.value inf) = true ∧
      specialMeets 0x037F (.fyl2xp1 []) 0x3FFD8000000000000000 0 (.value 0) = true) ∧
    InLogRange 0 ∧ InLogRange 0x3FFD8000000000000000 := by
  unfold InLogRange
  rw [val_zero, val_of 0x3FFD8000000000000000 (-2) (by decide) (by decide) (by decide) (by decide)]
  exact ⟨by decide +kernel, ⟨by decide +kernel, by decide +kernel⟩, by norm_num, by norm_num⟩

/-- FYL2X of numbers below and above 1 with an infinity and a zero; a denormal operand, masked and unmasked. -/
theorem witness_SpecialOperandRows_numbers :
    specialRow (.fyl2x []) half inf = some (.value minusInf) ∧ specialRow (.fyl2x []) two 0 = some (.value 0) ∧
      (operable (s0 [half, inf]) (.fyl2x []) = true ∧ operable (s0 [two, 0]) (.fyl2x []) = true) ∧
      [0x037F, 0x037D].all (fun w => specialMeets w (.fscale []) 0 1 (.value 0)) = true := by
  refine ⟨?_, ?_, by decide +kernel, by decide +kernel⟩
  · have h : decide (val half < 1) = true := by rw [val_half]; norm_num
    have o : (half == (0x3FFF8000000000000000 : Ext)) = false := by decide
    unfold specialRow; dsimp only; rw [h, o]; decide
  · have h : decide (val two < 1) = false := by rw [val_two]; norm_num
    have o : (two == (0x3FFF8000000000000000 : Ext)) = false := by decide
    unfold specialRow; dsimp only; rw [h, o]; decide

/-- Every row of FXTRACT, FPTAN and FSINCOS, masked and unmasked. -/
theorem witness_SpecialOperandRows_pairs :
    [(Instr.fxtract [], 0, SpecialRow.zeroDivide (minusInf, 0)), (.fxtract [], inf, .value (inf, inf)),
      (.fptan [], 0, .value (0, one)), (.fsincos [], minusInf, .invalid (qnan, qnan)),
      (.fptan [], qnan, .value (qnan, qnan)),
      (.fsincos [], 0x7FFF8000000000000001, .invalid (0x7FFFC000000000000001, 0x7FFFC000000000000001)),
      (.fxtract [], 0x3FFF0000000000000001, .invalid (qnan, qnan))].all (fun q =>
        [0x037F, 0x037E, 0x037B].all fun w =>
          let s := cw w (s0 [q.2.1])
          makesPair q.1 && operable s q.1 && !s.npx.empty 0 && !s.npx.full &&
            decide (pairRow q.1 (s.npx.st 0) = some q.2.2)) = true := by decide +kernel

/-- Each row of the table, and one with a denormal. -/
theorem witness_ArctangentTableAngles :
    (operable (s0 [minusOne, 0]) (.fpatan []) = true ∧ (s0 [minusOne, 0]).npx.empty 0 = false ∧
      (s0 [minusOne, 0]).npx.empty 1 = false ∧ classOf ((s0 [minusOne, 0]).npx.st 1) = .zero ∧
      usable (s0 [minusOne, 0]).npx.cw.dm ((s0 [minusOne, 0]).npx.st 0) = true ∧
      signOf ((s0 [minusOne, 0]).npx.st 0) = true) ∧
    (operable (s0 [inf, inf]) (.fpatan []) = true ∧ classOf ((s0 [inf, inf]).npx.st 0) = .infinity ∧
      classOf ((s0 [inf, inf]).npx.st 1) = .infinity ∧ signOf ((s0 [inf, inf]).npx.st 0) = false) ∧
    (operable (s0 [minusInf, inf]) (.fpatan []) = true ∧ signOf ((s0 [minusInf, inf]).npx.st 0) = true) ∧
    (operable (s0 [one, minusInf]) (.fpatan []) = true ∧ classOf ((s0 [one, minusInf]).npx.st 1) = .infinity ∧
      usable (s0 [one, minusInf]).npx.cw.dm ((s0 [one, minusInf]).npx.st 0) = true) ∧
    (operable (s0 [0, one]) (.fpatan []) = true ∧ usable (s0 [0, one]).npx.cw.dm ((s0 [0, one]).npx.st 1) = true ∧
      val ((s0 [0, one]).npx.st 1) ≠ 0 ∧ classOf ((s0 [0, one]).npx.st 0) = .zero) ∧
    (operable (s0 [minusInf, one]) (.fpatan []) = true ∧ val ((s0 [minusInf, one]).npx.st 1) ≠ 0 ∧
      classOf ((s0 [minusInf, one]).npx.st 0) = .infinity) ∧
    (operable (s0 [1, inf]) (.fpatan []) = true ∧ classOf ((s0 [1, inf]).npx.st 1) = .infinity ∧
      usable (s0 [1, inf]).npx.cw.dm ((s0 [1, inf]).npx.st 0) = true ∧ classOf ((s0 [1, inf]).npx.st 0) = .denormal) := by
  have a : (s0 [0, one]).npx.st 1 = one := by decide
  have b : (s0 [minusInf, one]).npx.st 1 = one := by decide
  rw [a, b, val_one]
  refine ⟨⟨?_, ?_, ?_, ?_, ?_, ?_⟩, ⟨?_, ?_, ?_, ?_⟩, ⟨?_, ?_⟩, ⟨?_, ?_, ?_⟩, ⟨?_, ?_, one_ne_zero, ?_⟩,
    ⟨?_, one_ne_zero, ?_⟩, ?_, ?_, ?_, ?_⟩ <;>
    decide +kernel

theorem witness_StatusAndControlTransfers :
    operable State.reset (.fstswM16 [] m100) = true ∧ State.reset.mem.wf = true ∧
      operable State.reset (.fstswAx []) = true ∧ operable State.reset (.fstcw [] m100) = true ∧
      operable (mem 2 0x037E (s0 [])) (.fldcw [] m100) = true ∧ operable State.reset (.fclex []) = true := by
  decide +kernel

/-- The four formats of R48. -/
theorem witness_StoreEnvironmentImage :
    (operable (prot (s0 [one])) (.fstenv [.opSize] m100) = true ∧ (prot (s0 [one])).mem.wf = true ∧
      operandSize32 (prot (s0 [one])).cpu.opSize32 [.opSize] = true ∧ (prot (s0 [one])).cpu.mode = .protectedMode) ∧
    (operable (prot (s0 [one])) (.fstenv [] m100) = true ∧ operandSize32 (prot (s0 [one])).cpu.opSize32 [] = false) ∧
    (operable (s0 [one]) (.fstenv [.opSize] m100) = true ∧ operandSize32 (s0 [one]).cpu.opSize32 [.opSize] = true ∧
      (s0 [one]).cpu.mode ≠ .protectedMode) ∧
    (operable (s0 [one]) (.fstenv [] m100) = true ∧ operandSize32 (s0 [one]).cpu.opSize32 [] = false) := by
  decide +kernel

/-- Both instructions, in the four formats of R48. -/
theorem witness_LoadEnvironmentImage :
    [prot (s0 [one]), s0 [one]].all (fun s => [[], [PrefixByte.opSize]].all fun p =>
      operable s (.fldenv p m100) && operable s (.frstor p m100)) = true ∧
    (operandSize32 (s0 [one]).cpu.opSize32 [] = false ∧ operandSize32 (s0 [one]).cpu.opSize32 [.opSize] = true ∧
      (prot (s0 [one])).cpu.opSize32 = (s0 [one]).cpu.opSize32 ∧ (prot (s0 [one])).cpu.mode = .protectedMode ∧
      (s0 [one]).cpu.mode ≠ .protectedMode) := by constructor <;> decide +kernel

theorem witness_SaveThenRestore :
    operable (prot (s0 [one, two])) (.fsave [.opSize] m100) = true ∧ (prot (s0 [one, two])).mem.wf = true ∧
      (prot (s0 [one, two])).npx.esLaw ∧ (prot (s0 [one, two])).npx.tagLaw ∧
      (∃ t, exec (.fsave [.opSize] m100) (prot (s0 [one, two])) = .next t ∧ accessOk t (.frstor [.opSize] m100) = true) ∧
      (prot (s0 [one, two])).cpu.mode = .protectedMode ∧
      operandSize32 (prot (s0 [one, two])).cpu.opSize32 [.opSize] = true :=
  ⟨by decide +kernel, by decide, ⟨by decide, by decide⟩, fun k => by revert k; decide +kernel,
    ⟨_, rfl, by decide +kernel⟩, rfl, by decide⟩

theorem witness_StackPointerMoves :
    operable (s0 []) (.fincstp []) = true ∧ operable (fullOf one) (.fdecstp []) = true := by decide +kernel

theorem witness_FreeAndNoOperations :
    operable (s0 [one]) (.ffree [] 0) = true ∧ operable (s0 []) (.fnop []) = true ∧ operable (s0 []) (.feni []) = true ∧
      operable (s0 []) (.fdisi []) = true ∧ operable (s0 []) (.fsetpm []) = true ∧
      (cr0 false true State.reset).cpu.ts = true ∧ (State.reset.cpu.ts = false ∧ State.reset.npx.sw.es = true) ∧
      (s0 []).cpu.ts = false ∧ (s0 []).npx.sw.es = false := by decide +kernel

def pins : BusPins :=
  { ads := true, ready := true, wr := true, nps1 := false, nps2 := true, cmd0 := true, sten := true, resetin := false,
    ckm := true, data := 0 }

/-- Nothing happens in the data interface. -/
def quiet : UnitEvents :=
  { ticks := 2, request := 0, take := 0, push := none, result := none, done := false, envLoad := false, clearsError := false }

/-- An I/O read at the command port and an I/O write at the data port (R360, R361). -/
theorem test_ports : cycleType ({ pins with wr := false }.atIo commandPort) = .controlRead ∧
    cycleType (pins.atIo dataPort) = .dataWrite := by decide

/-- A machine whose bus unit is as given. -/
def withBus (u : BusUnit) : State := { State.reset with bus := u }

/-- One CLK has a next state in which p holds. -/
def clocks (u : BusUnit) (p : BusPins) (ev : UnitEvents) (q : State → Bool) : Bool :=
  match busClock (withBus u) p ev with
  | .next t => q t
  | .fault _ => false
  | .refused _ => false

/-- Every row of Table 3.4; every transition of R370, also at the end of an opcode write; STEN inactive, active, and
RESETIN. -/
theorem witness_BusCyclesAndStates :
    (({ pins with sten := false }).sten = false ∧ ({ pins with nps1 := true }).nps1 = true ∧
      ({ pins with nps2 := false }).nps2 = false ∧ pins.sten = true ∧ pins.nps1 = false ∧ pins.nps2 = true ∧
      (0x000000F8 : DWord).getLsbD 31 = false) ∧
    [true, false].all (fun a => [true, false].all fun r =>
      [BusPhase.ti, .trs, .tp].all fun ph =>
      [CycleType.floating, .notSelected, .controlRead, .opcodeWrite, .dataRead, .dataWrite].all fun k =>
        clocks { BusUnit.reset with phase := ph, cycle := some { kind := k, trs := 1 }, settle := 0 }
          { pins with ads := a, ready := r } quiet (fun _ => true)) = true ∧
    ({ pins with resetin := true }).resetin = true := by
  refine ⟨?_, ?_, rfl⟩ <;> decide +kernel

/-- An instruction in progress, its operand moved. -/
def working : BusUnit :=
  { BusUnit.reset with busy := true, busyFor := 2, quietFor := 2, opcode := some 0xD9E8, settle := 0 }

theorem working_inv : working.Inv := by unfold BusUnit.Inv; decide

/-- With the last TRS state of a cycle, which READY ends in this CLK. -/
def ending (u : BusUnit) (k : CycleType) : BusUnit := { u with phase := .trs, cycle := some { kind := k, trs := 1 } }

/-- The pins of a CLK in which READY is active. -/
def ended : BusPins := { pins with ready := false }

theorem ending_cycleEnds (u : BusUnit) (k : CycleType) (p : BusPins) (h : p.ready = false) :
    (ending u k).cycleEnds p k := ⟨rfl, h, 1, rfl⟩

theorem idle_cycleEnds (u : BusUnit) (k : CycleType) (p : BusPins) (h : u.phase = .ti) : ¬ u.cycleEnds p k :=
  fun c => by have := h.symm.trans c.1; cases this

/-- In turn: PEREQ rises; the NPX state changes without ERROR; ERROR becomes active, and inactive under a marked opcode; BUSY
ends, also three CLK after ERROR changed, and with an operand written in that CLK; BUSY rises; BUSY goes on, also after
ERROR changed; BUSY stays inactive; an opcode is written, and none. -/
theorem witness_BusHandshake_clock :
    working.Inv ∧ (working.pereq = false ∧ clocks working pins { quiet with request := 2 } (·.bus.pereq)) ∧
      clocks working pins { quiet with result := some { Npx.reset with fop := 1 } }
        (fun t => t.npx != Npx.reset) = true ∧
      (∃ t, busClock { withBus working with npx := Npx.reset.withSw (StatusWord.ofBits 0) } pins
        { quiet with result := some Npx.reset } = .next t ∧ t.npx.sw.es = true) ∧
      ({ working with clearsError := true }.busyIn = 0 ∧
        clocks { working with clearsError := true } pins { quiet with result := some (Npx.reset.withSw (StatusWord.ofBits 0)) }
          (fun t => !t.npx.sw.es) = true) ∧
      (working.busy = true ∧ clocks working pins { quiet with done := true } (fun t => !t.bus.busy) = true) ∧
      ({ working with errorFor := some 2 }.errorFor = some 2 ∧
        clocks { working with errorFor := some 2 } pins { quiet with done := true } (fun t => !t.bus.busy) = true) ∧
      clocks (ending { working with fifo := [1, 2] } .dataWrite) ended { quiet with done := true }
        (fun t => !t.bus.busy && t.bus.fifo.length == 1) = true ∧
      clocks { working with busy := false, busyIn := 1 } pins quiet
        (fun t => t.bus.busy && t.bus.busyFor == 0 && t.bus.busyIn == 0) = true ∧
      clocks working pins quiet (fun t => t.bus.busy && t.bus.busyFor == 3 && t.bus.quietFor == 3) = true ∧
      clocks { working with errorFor := some 0 } pins quiet (fun t => t.bus.busy && t.bus.errorFor == some 1) = true ∧
      clocks { working with busy := false } pins quiet (fun t => !t.bus.busy) = true ∧
      ((ending working .opcodeWrite).cycleEnds ended .opcodeWrite ∧
        clocks (ending working .opcodeWrite) ended quiet (fun t => t.bus.busyIn == 2) = true) ∧
      ¬ working.cycleEnds pins .opcodeWrite ∧
      clocks { BusUnit.reset with busyIn := 2 } pins quiet (fun t => t.bus.busyIn == 1 && t.bus.settle == 48) = true := by
  refine ⟨working_inv, ⟨rfl, ?_⟩, ?_, ⟨_, rfl, rfl⟩, ⟨rfl, ?_⟩, ⟨rfl, ?_⟩, ⟨rfl, ?_⟩, ?_, ?_, ?_, ?_, ?_,
    ⟨ending_cycleEnds _ _ _ rfl, ?_⟩, idle_cycleEnds _ _ _ rfl, ?_⟩ <;> decide +kernel

/-- RESETIN HIGH; both clocking modes, asynchronous at either end of the ratio; a pulse one period short; an opcode written
one period too early, in each mode; and what goes on: no pulse and no write, and the shortest pulse with an opcode written as
soon as it may be. -/
theorem witness_BusHandshake_times :
    { pins with resetin := true }.resetin = true ∧ (pins.ckm = true ∧ pins.resetin = false) ∧
    ({ pins with ckm := false }.ckm = false ∧ 1 ≤ { quiet with ticks := 1 }.ticks ∧ { quiet with ticks := 3 }.ticks ≤ 3) ∧
    ((withBus { BusUnit.reset with resetFor := 39 }).bus.resetFor ≠ 0 ∧
      (withBus { BusUnit.reset with resetFor := 39 }).bus.resetFor < 40) ∧
    ((ending { BusUnit.reset with settle := 3 } .opcodeWrite).cycleEnds ended .opcodeWrite ∧
      busTicks ended quiet < (ending { BusUnit.reset with settle := 3 } .opcodeWrite).settle) ∧
    ((ending { BusUnit.reset with settle := 4 } .opcodeWrite).cycleEnds { ended with ckm := false } .opcodeWrite ∧
      busTicks { ended with ckm := false } { quiet with ticks := 3 } <
        (ending { BusUnit.reset with settle := 4 } .opcodeWrite).settle) ∧
    (BusUnit.reset.resetFor = 0 ∧ ¬ BusUnit.reset.cycleEnds pins .opcodeWrite ∧ ¬ BusUnit.reset.cycleEnds pins .dataWrite) ∧
    let u := ending { BusUnit.reset with resetFor := 40, settle := 2, writeGap := 1 } .opcodeWrite
    40 ≤ u.resetFor ∧ u.cycleEnds ended .opcodeWrite ∧ u.settle ≤ busTicks ended quiet ∧ u.writeGap ≤ 1 := by
  refine ⟨rfl, ⟨rfl, rfl⟩, ⟨rfl, ?_, ?_⟩, ⟨?_, ?_⟩, ⟨ending_cycleEnds _ _ _ rfl, ?_⟩, ⟨ending_cycleEnds _ _ _ rfl, ?_⟩,
    ⟨rfl, idle_cycleEnds _ _ _ rfl, idle_cycleEnds _ _ _ rfl⟩, ?_, ending_cycleEnds _ _ _ rfl, ?_, ?_⟩ <;> decide

/-- EM takes interrupt 7 at an ESC opcode in the segment's last byte, and TS at WAIT there (R107, R410). -/
theorem test_interrupt7_first : [(true, false, 0xD9), (false, true, 0x9B)].all (fun q =>
    match step (codeAt q.1 q.2.1 1 [q.2.2]) with
    | .next t => t.cpu.interrupt.map (·.vector) == some .v7
    | .fault _ => false
    | .refused _ => false) = true := by decide +kernel

/-- An unmarked opcode leaves ERROR active (R357), and ERROR does not change as PEREQ rises (t34 of R374). -/
theorem test_error_stays : clocks working pins { quiet with result := some (Npx.reset.withSw (StatusWord.ofBits 0)) }
    (·.npx.sw.es) = true := by decide +kernel
theorem test_error_waits : clocks { working with clearsError := true } pins
    { quiet with request := 2, result := some (Npx.reset.withSw (StatusWord.ofBits 0)) }
    (fun t => t.npx.sw.es && t.bus.pereq) = true := by decide +kernel

theorem witness_ResetMeetsInvariant : State.reset.mem.wf = true := by decide

end Sys2Proof.Tests
end

section
/-! PROOFS. The constant loads (spec/43_constants.md): an operable instruction starts, a result without an exception is
pushed with C1 clear and no flag changed, and each of the seven instructions is a `LoadsConstant`. -/

namespace Sys2Proof.Machine

/-! The start of an operable instruction. -/

/-- An operable instruction is past the host's checks, and past its operand's where it has one (R176 step 1, R414). -/
theorem starts_of_operable {s : State} {i : Instr} (h : operable s i = true) : Starts i (operandOf s i) s := by
  simp only [operable, Bool.and_eq_true, Bool.or_eq_true, Bool.not_eq_true'] at h
  obtain ⟨⟨⟨⟨⟨hem, hts⟩, hes⟩, hacc⟩, -⟩, -⟩ := h
  refine (starts_iff i _ s).2 ⟨hem, hts, hes, fun a ha => ?_⟩
  simp only [accessOk, ha, Bool.and_eq_true] at hacc
  exact hacc.1

/-- Starting changes pointers alone, so what is pushed afterwards is pushed on the stack of s. -/
theorem pushed_started {s : State} {i : Instr} {o : Option Operand} {y : Npx} {v : Ext} :
    Pushed (s.started i o) y v ↔ Pushed s.npx y v := by simp [Pushed]

theorem sameFlags_started {s : State} {i : Instr} {o : Option Operand} {y : Npx} :
    SameFlags (s.started i o) y ↔ SameFlags s.npx y := by simp [SameFlags]

/-! A result without an exception, pushed (R22, R153, R173). -/

@[simp] theorem Result.ok_signals {α : Type} (v : α) (c : Bool) : (Result.ok v c).signals = {} := rfl
@[simp] theorem Result.ok_sf {α : Type} (v : α) (c : Bool) : (Result.ok v c).sf = false := rfl
@[simp] theorem Result.ok_c1 {α : Type} (v : α) (c : Bool) : (Result.ok v c).c1 = .set c := rfl

@[simp] theorem Npx.deliverPush_ok (x : Npx) (n : Nat) (v : Ext) (c : Bool) :
    x.deliverPush n (.ok v c) = (x.note n (.ok v c)).push v := rfl

/-- Drawing C3, C2, C0 afterwards does not touch the push. -/
theorem pushed_deliverPush_ok (x : Npx) (n : Nat) (v : Ext) :
    Pushed x ((x.deliverPush n (.ok v)).undefCc n) v := by
  refine ⟨by simp, by simp, by simp, fun k hk => ⟨?_, ?_⟩⟩
  · exact (Npx.push_reg _ k v).trans (if_neg hk.symm)
  · exact (Npx.push_tag _ k v).trans (if_neg hk.symm)

theorem sameFlags_deliverPush_ok (x : Npx) (n : Nat) (v : Ext) :
    SameFlags x ((x.deliverPush n (.ok v)).undefCc n) := by
  simp [SameFlags]

theorem c1_deliverPush_ok (x : Npx) (n : Nat) (v : Ext) :
    ((x.deliverPush n (.ok v)).undefCc n).sw.c1 = false := by
  simp

/-! The shared operation of the constant loads (R250). -/

theorem byRounding_eq_ite (rc : BitVec 2) (n d u c : Ext) :
    byRounding rc n d u c = if rc = 0 then n else if rc = 1 then d else if rc = 2 then u else c := by
  obtain ⟨⟨r, hr⟩⟩ := rc
  match r, hr with
  | 0, _ | 1, _ | 2, _ | 3, _ => rfl

/-- A constant that RC does not change (R251, R252). -/
theorem byRounding_self (rc : BitVec 2) (v : Ext) : byRounding rc v v v v = v := by
  simp [byRounding_eq_ite]

/-- With room on the stack, the one path of `loadConstant` is the push of the constant for CW.RC. -/
theorem loadConstant_of_starts {s : State} {i : Instr} (k : BitVec 2 → Ext) (hs : Starts i none s)
    (hf : s.npx.full = false) :
    loadConstant i k s = .next (s.complete i
      (((s.started i none).deliverPush s.draws (.ok (k s.npx.cw.rc))).undefCc s.draws)) := by
  simp [loadConstant, runStack_of_starts _ hs, hf]

theorem loadConstant_pushes {s : State} {i : Instr} (k : BitVec 2 → Ext) (hs : Starts i none s)
    (hf : s.npx.full = false) :
    ∃ t, loadConstant i k s = .next t ∧ Pushed s.npx t.npx (k s.npx.cw.rc) ∧ t.npx.sw.c1 = false ∧
      SameFlags s.npx t.npx :=
  ⟨_, loadConstant_of_starts k hs hf, pushed_started.1 (pushed_deliverPush_ok _ _ _), c1_deliverPush_ok _ _ _,
    sameFlags_started.1 (sameFlags_deliverPush_ok _ _ _)⟩

/-! The seven instructions. -/

/-- Instruction i is the load of a constant: its bytes after the prefixes p are D9 and b, it has no memory operand, and it
runs `loadConstant` on the patterns n, d, u, c for RC = 00, 01, 10, 11. -/
structure LoadsConstant (p : List PrefixByte) (i : Instr) (b : Byte) (n d u c : Ext) : Prop where
  bytes : encode i = p.map encodePrefix ++ [0xD9, b]
  noOperand : ∀ s, memForm s i = none
  meaning : ∀ s, exec i s = loadConstant i (fun rc => byRounding rc n d u c) s

theorem LoadsConstant.pushes {p : List PrefixByte} {i : Instr} {b : Byte} {n d u c : Ext}
    (h : LoadsConstant p i b n d u c) {s : State} (ho : operable s i = true) (hf : s.npx.full = false) :
    ∃ t, exec i s = .next t ∧
      Pushed s.npx t.npx (if s.npx.cw.rc = 0 then n else if s.npx.cw.rc = 1 then d else if s.npx.cw.rc = 2 then u else c) ∧
      t.npx.sw.c1 = false ∧ SameFlags s.npx t.npx := by
  have hs : Starts i none s := by simpa [operandOf, h.noOperand s] using starts_of_operable ho
  rw [h.meaning, ← byRounding_eq_ite]
  exact loadConstant_pushes _ hs hf

/-- A load whose pattern is the same under every RC (R251, R252). -/
theorem LoadsConstant.of_fixed {p : List PrefixByte} {i : Instr} {b : Byte} {v : Ext}
    (bytes : encode i = p.map encodePrefix ++ [0xD9, b]) (noOperand : ∀ s, memForm s i = none)
    (meaning : ∀ s, exec i s = loadConstant i (fun _ => v) s) : LoadsConstant p i b v v v v :=
  ⟨bytes, noOperand, fun s => by simp only [byRounding_self, meaning]⟩

/-- Settles O26: each row of the table is a `LoadsConstant`, by the definitions of its instruction, and every such
instruction pushes its pattern. -/
theorem constantLoads : Obligations.ConstantLoads := by
  unfold Obligations.ConstantLoads
  intro p s i b n d u c h
  have row : LoadsConstant p i b n d u c := by
    simp only [List.mem_cons, List.not_mem_nil, or_false, Prod.mk.injEq] at h
    rcases h with ⟨rfl, rfl, rfl, rfl, rfl, rfl⟩ | ⟨rfl, rfl, rfl, rfl, rfl, rfl⟩ | ⟨rfl, rfl, rfl, rfl, rfl, rfl⟩ |
      ⟨rfl, rfl, rfl, rfl, rfl, rfl⟩ | ⟨rfl, rfl, rfl, rfl, rfl, rfl⟩ | ⟨rfl, rfl, rfl, rfl, rfl, rfl⟩ |
      ⟨rfl, rfl, rfl, rfl, rfl, rfl⟩
    case inl | inr.inl => exact .of_fixed rfl (fun _ => rfl) (fun _ => rfl)
    all_goals exact ⟨rfl, fun _ => rfl, fun _ => rfl⟩
  exact ⟨row.bytes, fun ho hf => row.pushes ho hf⟩

end Sys2Proof.Machine
end

section
/-! PROOFS. FABS and FCHS (spec/44_arithmetic.md R290, R291): both are `Npx.setSign` on the stack as the instruction
starts; a present ST(0) keeps its tag and the flags, an empty one is a stack underflow. -/

namespace Sys2Proof.Machine

/-! What an instruction may touch. -/

/-- Starting changes pointers alone, so a frame from the started stack is one from the stack of s. -/
theorem onlyAt_started {s : State} {i : Instr} {o : Option Operand} {y : Npx} {ks : List Idx} :
    OnlyAt (s.started i o) y ks ↔ OnlyAt s.npx y ks := by simp [OnlyAt]

theorem OnlyAt.of_nil {x y : Npx} (h : OnlyAt x y []) (ks : List Idx) : OnlyAt x y ks :=
  ⟨h.1, fun k _ => h.2 k List.not_mem_nil⟩

/-- ST(0) is R[TOP] (R22); the index is written in the form `simp` gives it. -/
@[simp] theorem Npx.phys_zero (x : Npx) : x.phys 0#3 = x.sw.top := BitVec.add_zero _

/-! A stack underflow with a register destination (R155, R171). -/

@[simp] theorem Result.underflow_signals {α : Type} (cw : ControlWord) (v : α) :
    (Result.underflow cw v).signals = { ie := true } := rfl
@[simp] theorem Result.underflow_sf {α : Type} (cw : ControlWord) (v : α) : (Result.underflow cw v).sf = true := rfl
@[simp] theorem Result.underflow_c1 {α : Type} (cw : ControlWord) (v : α) :
    (Result.underflow cw v).c1 = .set false := rfl

theorem Npx.deliverTo_underflow_masked {x : Npx} (hm : x.cw.im = true) (n : Nat) (k : Idx) (pops : Nat) (v : Ext) :
    x.deliverTo n k pops (.underflow x.cw v) = ((x.note n (.underflow x.cw v)).setReg k v).pops pops := by
  simp [Npx.deliverTo, Result.underflow, hm]

theorem Npx.deliverTo_underflow_unmasked {x : Npx} (hm : x.cw.im = false) (n : Nat) (k : Idx) (pops : Nat) (v : Ext) :
    x.deliverTo n k pops (.underflow x.cw v) = x.note n (.underflow x.cw v) := by
  simp [Npx.deliverTo, Result.underflow, hm]

/-! The three ends of `setSign`, and what each of them leaves. -/

theorem Npx.setSign_present {x : Npx} (he : x.empty 0 = false) (n : Nat) (b : Bool) :
    x.setSign n b =
      ((x.note n (Result.ok ())).setRegRaw (x.phys 0) (BitVec.ofBool b ++ (x.st 0).extractLsb' 0 79)).undefCc n := by
  rw [Npx.setSign, if_neg (ne_true_of_eq_false he)]

theorem Npx.setSign_empty_masked {x : Npx} (he : x.empty 0 = true) (hm : x.cw.im = true) (n : Nat) (b : Bool) :
    x.setSign n b = ((x.note n (.underflow x.cw qnanIndef)).setReg (x.phys 0) qnanIndef).undefCc n := by
  rw [Npx.setSign, if_pos he, Npx.deliverTo_underflow_masked hm, Npx.pops_zero]

theorem Npx.setSign_empty_unmasked {x : Npx} (he : x.empty 0 = true) (hm : x.cw.im = false) (n : Nat) (b : Bool) :
    x.setSign n b = (x.note n (.underflow x.cw qnanIndef)).undefCc n := by
  rw [Npx.setSign, if_pos he, Npx.deliverTo_underflow_unmasked hm]

theorem setSign_present_spec {x : Npx} (he : x.empty 0 = false) (n : Nat) (b : Bool) :
    (x.setSign n b).st 0 = BitVec.ofBool b ++ (x.st 0).extractLsb' 0 79 ∧
      (x.setSign n b).tag x.sw.top = x.tag x.sw.top ∧ SameFlags x (x.setSign n b) := by
  rw [Npx.setSign_present he]
  simp [Npx.st, SameFlags]

theorem setSign_empty_masked_spec {x : Npx} (he : x.empty 0 = true) (hm : x.cw.im = true) (n : Nat) (b : Bool) :
    (x.setSign n b).st 0 = qnanIndef ∧ (x.setSign n b).tag x.sw.top = .special := by
  have hq : tagOf qnanIndef = .special := by decide
  rw [Npx.setSign_empty_masked he hm]
  simp [Npx.st, hq]

theorem onlyAt_setSign_empty_unmasked {x : Npx} (he : x.empty 0 = true) (hm : x.cw.im = false) (n : Nat) (b : Bool) :
    OnlyAt x (x.setSign n b) [] := by
  rw [Npx.setSign_empty_unmasked he hm]
  simp [OnlyAt]

/-- Masked or not, the underflow sets IE and SF. -/
theorem setSign_empty_flags {x : Npx} (he : x.empty 0 = true) (n : Nat) (b : Bool) :
    (x.setSign n b).sw.ie = true ∧ (x.setSign n b).sw.sf = true := by
  cases hm : x.cw.im with
  | false => simp [Npx.setSign_empty_unmasked he hm]
  | true => simp [Npx.setSign_empty_masked he hm]

theorem c1_setSign (x : Npx) (n : Nat) (b : Bool) : (x.setSign n b).sw.c1 = false := by
  cases he : x.empty 0 with
  | false => simp [Npx.setSign_present he]
  | true =>
    cases hm : x.cw.im with
    | false => simp [Npx.setSign_empty_unmasked he hm]
    | true => simp [Npx.setSign_empty_masked he hm]

theorem onlyAt_setSign (x : Npx) (n : Nat) (b : Bool) : OnlyAt x (x.setSign n b) [x.sw.top] := by
  have other {k : Idx} (hk : k ∉ [x.sw.top]) : x.sw.top ≠ k := fun h => hk (h ▸ List.mem_singleton_self _)
  cases he : x.empty 0 with
  | false =>
    rw [Npx.setSign_present he]
    exact ⟨by simp, fun k hk => by simp [other hk]⟩
  | true =>
    cases hm : x.cw.im with
    | false => exact (onlyAt_setSign_empty_unmasked he hm n b).of_nil _
    | true =>
      rw [Npx.setSign_empty_masked he hm]
      exact ⟨by simp, fun k hk => by simp [other hk]⟩

/-! The two instructions. -/

theorem fabs_of_starts {p : List PrefixByte} {s : State} (h : Starts (.fabs p) none s) :
    exec (.fabs p) s = .next (s.complete (.fabs p) ((s.started (.fabs p) none).setSign s.draws false)) :=
  runStack_of_starts (fun x => x.setSign s.draws false) h

theorem fchs_of_starts {p : List PrefixByte} {s : State} (h : Starts (.fchs p) none s) :
    exec (.fchs p) s =
      .next (s.complete (.fchs p) ((s.started (.fchs p) none).setSign s.draws (!(s.npx.st 0).getLsbD 79))) := by
  rw [← State.started_st s (.fchs p) none]
  exact runStack_of_starts (fun x => x.setSign s.draws (!signOf (x.st 0))) h

/-- Settles O42: each of the two instructions completes with `setSign` of its sign bit, so the statement is what
`setSign` leaves, read from the stack of s instead of the started one. -/
theorem signOperations : Obligations.SignOperations := by
  unfold Obligations.SignOperations
  intro p s i b b1 hi ho
  have hs : Starts i (operandOf s i) s := starts_of_operable ho
  obtain ⟨bytes, run⟩ : encode i = p.map encodePrefix ++ [0xD9, b1] ∧
      exec i s = .next (s.complete i ((s.started i none).setSign s.draws b)) := by
    rcases hi with ⟨rfl, rfl, rfl⟩ | ⟨rfl, rfl, rfl⟩
    · exact ⟨rfl, fabs_of_starts hs⟩
    · exact ⟨rfl, fchs_of_starts hs⟩
  have frame := onlyAt_setSign (s.started i none) s.draws b
  refine ⟨bytes, _, run, by simpa [onlyAt_started] using frame, c1_setSign _ _ _, fun he => ?present, fun he => ?empty⟩
  case present =>
    have spec := setSign_present_spec ((State.started_empty s i none 0).trans he) s.draws b
    simpa [sameFlags_started] using spec
  case empty =>
    have he' : (s.started i none).empty 0 = true := (State.started_empty s i none 0).trans he
    obtain ⟨hie, hsf⟩ := setSign_empty_flags he' s.draws b
    refine ⟨hie, hsf, fun hm => ?masked, fun hm => ?unmasked⟩
    case masked =>
      have spec := setSign_empty_masked_spec he' (by simpa using hm) s.draws b
      simpa [qnanIndef] using spec
    case unmasked =>
      exact onlyAt_started.1 (onlyAt_setSign_empty_unmasked he' (by simpa using hm) s.draws b)

end Sys2Proof.Machine
end

section
/-! PROOFS. FINCSTP and FDECSTP (spec/46_processor_control.md R332, R333): both are `Npx.moveTop` on the stack as the
instruction starts; it changes TOP and the condition code alone, and FIP and FOP are those of the start (R45). -/

namespace Sys2Proof.Machine

/-! The pointers an instruction starts with (R45, R47). -/

theorem State.started_fip {i : Instr} (hk : keepsPointers i = false) (s : State) (o : Option Operand) :
    (s.started i o).fip = s.codePointer := by
  rw [State.started, if_neg (ne_true_of_eq_false hk)]

theorem State.started_fop {i : Instr} (hk : keepsPointers i = false) (s : State) (o : Option Operand) :
    (s.started i o).fop = i.fop := by
  rw [State.started, if_neg (ne_true_of_eq_false hk)]

/-- FOP of a form without a memory operand: the ESC row, then MOD = 11 and the two fields of the second byte (R119). -/
theorem fop_of_layout_reg {i : Instr} {p : List PrefixByte} {row op low : BitVec 3} (h : i.layout = .reg p row op low) :
    i.fop = row ++ (3#2 ++ op ++ low) := by
  rw [Instr.fop, h]; rfl

/-! What `moveTop` changes and leaves. -/

@[simp] theorem Npx.moveTop_regs (x : Npx) (n : Nat) (d : Idx) : (x.moveTop n d).regs = x.regs := rfl
@[simp] theorem Npx.moveTop_tags (x : Npx) (n : Nat) (d : Idx) : (x.moveTop n d).tags = x.tags := rfl
@[simp] theorem Npx.moveTop_fip (x : Npx) (n : Nat) (d : Idx) : (x.moveTop n d).fip = x.fip := rfl
@[simp] theorem Npx.moveTop_fop (x : Npx) (n : Nat) (d : Idx) : (x.moveTop n d).fop = x.fop := rfl

@[simp] theorem Npx.moveTop_sw (x : Npx) (n : Nat) (d : Idx) :
    (x.moveTop n d).sw = ((x.sw.withTop (x.sw.top + d)).withC1 false).undefCc n := rfl

theorem sameFlags_moveTop (x : Npx) (n : Nat) (d : Idx) : SameFlags x (x.moveTop n d) := by simp [SameFlags]

/-! The two instructions. -/

theorem fincstp_fop (p : List PrefixByte) : (Instr.fincstp p).fop = 0x1F7 :=
  (fop_of_layout_reg rfl).trans (by decide)
theorem fdecstp_fop (p : List PrefixByte) : (Instr.fdecstp p).fop = 0x1F6 :=
  (fop_of_layout_reg rfl).trans (by decide)

theorem fincstp_of_starts {p : List PrefixByte} {s : State} (h : Starts (.fincstp p) none s) :
    exec (.fincstp p) s =
      .next (s.complete (.fincstp p) ((s.started (.fincstp p) none).moveTop s.draws 1)) :=
  runStack_of_starts (fun x => x.moveTop s.draws 1) h

/-- The 7 of the model's FDECSTP is -1 modulo 8. -/
theorem fdecstp_of_starts {p : List PrefixByte} {s : State} (h : Starts (.fdecstp p) none s) :
    exec (.fdecstp p) s =
      .next (s.complete (.fdecstp p) ((s.started (.fdecstp p) none).moveTop s.draws (-1))) :=
  runStack_of_starts (fun x => x.moveTop s.draws 7) h

/-- What R332 and R333 give, when `moveTop` runs in an instruction that records its pointers and whose FOP is w. -/
theorem moveTop_started {i : Instr} {w : BitVec 11} (hk : keepsPointers i = false) (hw : i.fop = w) (s : State)
    (d : Idx) :
    let y := (s.started i none).moveTop s.draws d
    y.sw.top = s.npx.sw.top + d ∧ y.sw.c1 = false ∧ y.regs = s.npx.regs ∧ y.tags = s.npx.tags ∧ SameFlags s.npx y ∧
      y.fip.sel = s.cpu.cs.sel ∧ y.fip.off = s.cpu.eip ∧ y.fop = w := by
  have flags : SameFlags s.npx ((s.started i none).moveTop s.draws d) := sameFlags_started.1 (sameFlags_moveTop _ _ _)
  simp [flags, State.started_fip hk, State.started_fop hk, State.codePointer, hw]

/-- Settles O57: each of the two instructions completes with `moveTop` of its step, 1 or -1, and its bytes and FOP are
those of its layout. -/
theorem stackPointerMoves : Obligations.StackPointerMoves := by
  unfold Obligations.StackPointerMoves
  intro p s i d hi ho
  have hs : Starts i (operandOf s i) s := starts_of_operable ho
  rcases hi with ⟨rfl, rfl⟩ | ⟨rfl, rfl⟩
  case inl =>
    rw [if_pos rfl, if_pos rfl]
    exact ⟨rfl, _, fincstp_of_starts hs, moveTop_started rfl (fincstp_fop p) s 1⟩
  case inr =>
    have other : Instr.fdecstp p ≠ .fincstp p := Instr.noConfusion
    rw [if_neg other, if_neg other]
    exact ⟨rfl, _, fdecstp_of_starts hs, moveTop_started rfl (fdecstp_fop p) s (-1)⟩

end Sys2Proof.Machine
end

section
/-! PROOFS. The decoder and the encoder (spec/30_encoding.md R100 to R114): each part of an encoding is read back by the
part of the decoder that takes it, and whatever that part takes is the encoding of what it gives. -/

namespace Sys2Proof

/-! Small bit vectors. -/

/-- The eight register numbers. -/
theorem idx_cases {P : BitVec 3 → Prop} (h0 : P 0) (h1 : P 1) (h2 : P 2) (h3 : P 3) (h4 : P 4) (h5 : P 5) (h6 : P 6)
    (h7 : P 7) (k : BitVec 3) : P k := by
  obtain ⟨⟨n, hn⟩⟩ := k
  match n, hn with
  | 0, _ => exact h0
  | 1, _ => exact h1
  | 2, _ => exact h2
  | 3, _ => exact h3
  | 4, _ => exact h4
  | 5, _ => exact h5
  | 6, _ => exact h6
  | 7, _ => exact h7

/-- A byte is its three fields MOD, op and R/M (R101). -/
theorem fields_append (b : Byte) : (b.extractLsb' 6 2 ++ b.extractLsb' 3 3 ++ b.extractLsb' 0 3 : Byte) = b := by
  refine BitVec.eq_of_getLsbD_eq fun i hi => ?_
  simp only [BitVec.getLsbD_append, BitVec.getLsbD_extractLsb']
  interval_cases i <;> rfl

theorem extract_mod (mod : BitVec 2) (op low : BitVec 3) : (mod ++ op ++ low : Byte).extractLsb' 6 2 = mod := by
  refine BitVec.eq_of_getLsbD_eq fun i hi => ?_
  simp only [BitVec.getLsbD_append, BitVec.getLsbD_extractLsb']
  interval_cases i <;> rfl

theorem extract_op (mod : BitVec 2) (op low : BitVec 3) : (mod ++ op ++ low : Byte).extractLsb' 3 3 = op := by
  refine BitVec.eq_of_getLsbD_eq fun i hi => ?_
  simp only [BitVec.getLsbD_append, BitVec.getLsbD_extractLsb']
  interval_cases i <;> rfl

theorem extract_low (mod : BitVec 2) (op low : BitVec 3) : (mod ++ op ++ low : Byte).extractLsb' 0 3 = low := by
  refine BitVec.eq_of_getLsbD_eq fun i hi => ?_
  simp only [BitVec.getLsbD_append, BitVec.getLsbD_extractLsb']
  interval_cases i <;> rfl

/-! The bytes before the opcode (R105). -/

theorem prefixByte_encodePrefix (q : PrefixByte) : prefixByte (encodePrefix q) = some q := by
  cases q with
  | seg r => cases r <;> rfl
  | opSize => rfl
  | adSize => rfl

theorem encodePrefix_of_prefixByte {b : Byte} {q : PrefixByte} (h : prefixByte b = some q) : encodePrefix q = b := by
  unfold prefixByte at h
  split at h <;> cases h <;> exact BitVec.eq_of_toNat_eq (Eq.symm ‹_›)

theorem takePrefixes_append (p : List PrefixByte) {b : Byte} (hb : prefixByte b = none) (bs : List Byte) :
    takePrefixes (p.map encodePrefix ++ b :: bs) = (p, b :: bs) := by
  induction p with
  | nil => simp [takePrefixes, hb]
  | cons q p ih => simp [takePrefixes, prefixByte_encodePrefix, ih]

theorem append_takePrefixes (bs : List Byte) :
    (takePrefixes bs).1.map encodePrefix ++ (takePrefixes bs).2 = bs := by
  induction bs with
  | nil => rfl
  | cons b bs ih =>
    rw [takePrefixes]
    split
    case h_1 q hq => simp [encodePrefix_of_prefixByte hq, ih]
    case h_2 => rfl

theorem prefixByte_escByte (row : BitVec 3) : prefixByte (escByte row) = none := by
  induction row using idx_cases <;> rfl

/-! Numbers of registers (R112). -/

theorem gprOfNum_gprNum (r : Gpr) : gprOfNum (gprNum r) = r := by cases r <;> rfl
theorem gprNum_gprOfNum (n : BitVec 3) : gprNum (gprOfNum n) = n := by induction n using idx_cases <;> rfl
theorem base16OfNum_base16Num (b : Base16) : base16OfNum (base16Num b) = b := by cases b <;> rfl
theorem base16Num_base16OfNum (n : BitVec 3) : base16Num (base16OfNum n) = n := by induction n using idx_cases <;> rfl

theorem indexOfNum_indexNum {r : Option Gpr} (h : r ≠ some .esp) : indexOfNum (indexNum r) = r := by
  cases r with
  | none => rfl
  | some r => cases r with
    | esp => exact absurd rfl h
    | _ => rfl

theorem indexNum_indexOfNum (n : BitVec 3) : indexNum (indexOfNum n) = n := by induction n using idx_cases <;> rfl
theorem indexOfNum_ne_esp (n : BitVec 3) : indexOfNum n ≠ some .esp := by induction n using idx_cases <;> decide

theorem gprNum_eq_four_iff (r : Gpr) : gprNum r = 4 ↔ r = .esp := by cases r <;> decide
theorem gprNum_eq_five_iff (r : Gpr) : gprNum r = 5 ↔ r = .ebp := by cases r <;> decide
theorem gprOfNum_eq_esp_iff (n : BitVec 3) : gprOfNum n = .esp ↔ n = 4 := by induction n using idx_cases <;> decide
theorem gprOfNum_eq_ebp_iff (n : BitVec 3) : gprOfNum n = .ebp ↔ n = 5 := by induction n using idx_cases <;> decide
theorem base16Num_eq_six_iff (b : Base16) : base16Num b = 6 ↔ b = .bp := by cases b <;> decide
theorem base16OfNum_eq_bp_iff (n : BitVec 3) : base16OfNum n = .bp ↔ n = 6 := by induction n using idx_cases <;> decide

/-! Displacements (R112, R114). -/

theorem takeWord_append (d : BitVec 16) (bs : List Byte) : takeWord (wordBytes d ++ bs) = some (d, bs) := by
  have h : (d.extractLsb' 8 8 ++ d.extractLsb' 0 8 : BitVec 16) = d := by
    refine BitVec.eq_of_getLsbD_eq fun i hi => ?_
    simp only [BitVec.getLsbD_append, BitVec.getLsbD_extractLsb']
    interval_cases i <;> rfl
  simp [wordBytes, takeWord, h]

theorem append_takeWord {bs r : List Byte} {d : BitVec 16} (h : takeWord bs = some (d, r)) : wordBytes d ++ r = bs := by
  match bs, h with
  | b0 :: b1 :: bs, h =>
    cases h
    have h0 : (b1 ++ b0 : BitVec 16).extractLsb' 0 8 = b0 := by
      refine BitVec.eq_of_getLsbD_eq fun i hi => ?_
      simp only [BitVec.getLsbD_append, BitVec.getLsbD_extractLsb']
      interval_cases i <;> rfl
    have h1 : (b1 ++ b0 : BitVec 16).extractLsb' 8 8 = b1 := by
      refine BitVec.eq_of_getLsbD_eq fun i hi => ?_
      simp only [BitVec.getLsbD_append, BitVec.getLsbD_extractLsb']
      interval_cases i <;> rfl
    simp [wordBytes, h0, h1]

theorem takeDWord_append (d : BitVec 32) (bs : List Byte) : takeDWord (dwordBytes d ++ bs) = some (d, bs) := by
  have h : (d.extractLsb' 24 8 ++ d.extractLsb' 16 8 ++ d.extractLsb' 8 8 ++ d.extractLsb' 0 8 : BitVec 32) = d := by
    refine BitVec.eq_of_getLsbD_eq fun i hi => ?_
    simp only [BitVec.getLsbD_append, BitVec.getLsbD_extractLsb']
    interval_cases i <;> rfl
  simp [dwordBytes, takeDWord, h]

theorem append_takeDWord {bs r : List Byte} {d : BitVec 32} (h : takeDWord bs = some (d, r)) :
    dwordBytes d ++ r = bs := by
  match bs, h with
  | b0 :: b1 :: b2 :: b3 :: bs, h =>
    cases h
    have byte (b : Byte) (k : Nat) (hb : ∀ i < 8, (b3 ++ b2 ++ b1 ++ b0 : BitVec 32).getLsbD (k + i) = b.getLsbD i) :
        (b3 ++ b2 ++ b1 ++ b0 : BitVec 32).extractLsb' k 8 = b := by
      refine BitVec.eq_of_getLsbD_eq fun i hi => ?_
      rw [BitVec.getLsbD_extractLsb', hb i hi]
      simp [hi]
    have h0 := byte b0 0 fun i hi => by simp only [BitVec.getLsbD_append]; interval_cases i <;> rfl
    have h1 := byte b1 8 fun i hi => by simp only [BitVec.getLsbD_append]; interval_cases i <;> rfl
    have h2 := byte b2 16 fun i hi => by simp only [BitVec.getLsbD_append]; interval_cases i <;> rfl
    have h3 := byte b3 24 fun i hi => by simp only [BitVec.getLsbD_append]; interval_cases i <;> rfl
    simp [dwordBytes, h0, h1, h2, h3]

theorem takeDisp32_append (d : Disp 32) (bs : List Byte) : takeDisp32 d.mod (disp32Bytes d ++ bs) = some (d, bs) := by
  cases d with
  | none => rfl
  | d8 b => rfl
  | full d =>
    have h0 : (Disp.full d).mod ≠ 0 := by simp [Disp.mod]
    have h1 : (Disp.full d).mod ≠ 1 := by simp [Disp.mod]
    simp only [disp32Bytes, takeDisp32, if_neg h0, if_neg h1, takeDWord_append]

theorem takeDisp16_append (d : Disp 16) (bs : List Byte) : takeDisp16 d.mod (disp16Bytes d ++ bs) = some (d, bs) := by
  cases d with
  | none => rfl
  | d8 b => rfl
  | full d =>
    have h0 : (Disp.full d).mod ≠ 0 := by simp [Disp.mod]
    have h1 : (Disp.full d).mod ≠ 1 := by simp [Disp.mod]
    simp only [disp16Bytes, takeDisp16, if_neg h0, if_neg h1, takeWord_append]

/-- MOD other than 11 is 10 when it is neither 00 nor 01. -/
theorem mod_eq_two {mod : BitVec 2} (h0 : mod ≠ 0) (h1 : mod ≠ 1) (h3 : mod ≠ 3) : mod = 2 := by
  obtain ⟨⟨n, hn⟩⟩ := mod
  match n, hn with
  | 0, _ => exact absurd rfl h0
  | 1, _ => exact absurd rfl h1
  | 2, _ => rfl
  | 3, _ => exact absurd rfl h3

theorem append_takeDisp32 {mod : BitVec 2} {bs r : List Byte} {d : Disp 32} (h3 : mod ≠ 3)
    (h : takeDisp32 mod bs = some (d, r)) : d.mod = mod ∧ disp32Bytes d ++ r = bs := by
  unfold takeDisp32 at h
  split at h
  case isTrue h0 => cases h; exact ⟨h0.symm, rfl⟩
  case isFalse h0 =>
    split at h
    case isTrue h1 =>
      split at h
      · cases h
      · cases h; exact ⟨h1.symm, rfl⟩
    case isFalse h1 =>
      split at h
      · cases h
      case h_2 e => cases h; exact ⟨(mod_eq_two h0 h1 h3).symm, append_takeDWord e⟩

theorem append_takeDisp16 {mod : BitVec 2} {bs r : List Byte} {d : Disp 16} (h3 : mod ≠ 3)
    (h : takeDisp16 mod bs = some (d, r)) : d.mod = mod ∧ disp16Bytes d ++ r = bs := by
  unfold takeDisp16 at h
  split at h
  case isTrue h0 => cases h; exact ⟨h0.symm, rfl⟩
  case isFalse h0 =>
    split at h
    case isTrue h1 =>
      split at h
      · cases h
      · cases h; exact ⟨h1.symm, rfl⟩
    case isFalse h1 =>
      split at h
      · cases h
      case h_2 e => cases h; exact ⟨(mod_eq_two h0 h1 h3).symm, append_takeWord e⟩

theorem Disp.mod_eq_zero_iff {w : Nat} (d : Disp w) : d.mod = 0 ↔ d = .none := by
  cases d <;> simp [Disp.mod]

theorem Disp.mod_ne_three {w : Nat} (d : Disp w) : d.mod ≠ 3 := by cases d <;> simp [Disp.mod]

/-! Memory operands (R112). -/

/-- MOD of a memory operand is never 11. -/
theorem encodeOperand_mod_ne_three (m : MemOperand) : (encodeOperand m).1 ≠ 3 := by
  cases m with
  | disp32 | sibNoBase | disp16 => exact (by decide : (0 : BitVec 2) ≠ 3)
  | base32 _ d | sib _ _ _ d | base16 _ d => exact d.mod_ne_three

/-- A well-formed operand is read back from its MOD, R/M and bytes. -/
theorem takeOperand_encodeOperand {a32 : Bool} {m : MemOperand} (h : m.wellFormed a32 = true) (bs : List Byte) :
    takeOperand a32 (encodeOperand m).1 (encodeOperand m).2.1 ((encodeOperand m).2.2 ++ bs) = some (m, bs) := by
  cases m with
  | disp32 d =>
    obtain rfl : a32 = true := h
    simp [encodeOperand, takeOperand, takeDWord_append]
  | base32 r d =>
    simp only [MemOperand.wellFormed, Bool.and_eq_true, bne_iff_ne, Bool.or_eq_true] at h
    obtain ⟨⟨rfl, hr⟩, hd⟩ := h
    have h4 : gprNum r ≠ 4 := mt (gprNum_eq_four_iff r).1 hr
    have h5 : ¬(d.mod = 0 ∧ gprNum r = 5) := by
      rw [Disp.mod_eq_zero_iff, gprNum_eq_five_iff]; tauto
    rw [encodeOperand, takeOperand, if_pos rfl, if_neg h4, if_neg h5, takeDisp32_append, gprOfNum_gprNum]
  | sib ss index base d =>
    simp only [MemOperand.wellFormed, Bool.and_eq_true, bne_iff_ne, Bool.or_eq_true] at h
    obtain ⟨⟨rfl, hi⟩, hd⟩ := h
    have h5 : ¬(d.mod = 0 ∧ gprNum base = 5) := by
      rw [Disp.mod_eq_zero_iff, gprNum_eq_five_iff]; tauto
    rw [encodeOperand, takeOperand, if_pos rfl, if_pos rfl, List.cons_append, takeSib, extract_mod, extract_op,
      extract_low, if_neg h5, takeDisp32_append, gprOfNum_gprNum, indexOfNum_indexNum hi]
  | sibNoBase ss index d =>
    simp only [MemOperand.wellFormed, Bool.and_eq_true, bne_iff_ne] at h
    obtain ⟨rfl, hi⟩ := h
    rw [encodeOperand, takeOperand, if_pos rfl, if_pos rfl, List.cons_append, takeSib, extract_mod, extract_op,
      extract_low, if_pos ⟨rfl, rfl⟩, takeDWord_append, indexOfNum_indexNum hi]
  | disp16 d =>
    obtain rfl : a32 = false := by simpa [MemOperand.wellFormed] using h
    simp [encodeOperand, takeOperand, takeWord_append]
  | base16 b d =>
    simp only [MemOperand.wellFormed, Bool.and_eq_true, bne_iff_ne, Bool.or_eq_true, Bool.not_eq_true'] at h
    obtain ⟨rfl, hd⟩ := h
    have h6 : ¬(d.mod = 0 ∧ base16Num b = 6) := by
      rw [Disp.mod_eq_zero_iff, base16Num_eq_six_iff]; tauto
    rw [encodeOperand, takeOperand, if_neg Bool.false_ne_true, if_neg h6, takeDisp16_append, base16OfNum_base16Num]

/-- What the SIB byte and the bytes after it give is their encoding, and well-formed. -/
theorem encodeOperand_of_takeSib {mod : BitVec 2} {bs r : List Byte} {m : MemOperand} (h3 : mod ≠ 3)
    (h : takeSib mod bs = some (m, r)) :
    (encodeOperand m).1 = mod ∧ (encodeOperand m).2.1 = 4 ∧ (encodeOperand m).2.2 ++ r = bs ∧
      m.wellFormed true = true := by
  match bs, h with
  | s :: bs, h =>
    have hs := fields_append s
    rw [takeSib] at h
    split at h
    case isTrue c =>
      split at h
      · cases h
      case h_2 e =>
        cases h
        rw [c.2] at hs
        refine ⟨c.1.symm, rfl, ?_, ?_⟩
        · simp only [encodeOperand, indexNum_indexOfNum, List.cons_append, append_takeDWord e]
          rw [hs]
        · simp [MemOperand.wellFormed, indexOfNum_ne_esp]
    case isFalse c =>
      split at h
      · cases h
      case h_2 d _ e =>
        cases h
        obtain ⟨hd, hb⟩ := append_takeDisp32 h3 e
        refine ⟨hd, rfl, ?_, ?_⟩
        · simp only [encodeOperand, indexNum_indexOfNum, gprNum_gprOfNum, List.cons_append, hb]
          rw [hs]
        · rw [← hd, Disp.mod_eq_zero_iff] at c
          simp only [MemOperand.wellFormed, Bool.and_eq_true, bne_iff_ne, Bool.or_eq_true, ne_eq, gprOfNum_eq_ebp_iff]
          exact ⟨⟨trivial, indexOfNum_ne_esp _⟩, by tauto⟩

/-- What a memory form's bytes give is their encoding, and well-formed. -/
theorem encodeOperand_of_takeOperand {a32 : Bool} {mod : BitVec 2} {rm : BitVec 3} {bs r : List Byte} {m : MemOperand}
    (h3 : mod ≠ 3) (h : takeOperand a32 mod rm bs = some (m, r)) :
    (encodeOperand m).1 = mod ∧ (encodeOperand m).2.1 = rm ∧ (encodeOperand m).2.2 ++ r = bs ∧
      m.wellFormed a32 = true := by
  unfold takeOperand at h
  split at h
  case isTrue ha =>
    subst ha
    split at h
    case isTrue h4 => rw [h4]; exact encodeOperand_of_takeSib h3 h
    case isFalse h4 =>
      split at h
      case isTrue c =>
        split at h
        · cases h
        case h_2 e => cases h; exact ⟨c.1.symm, c.2.symm, append_takeDWord e, rfl⟩
      case isFalse c =>
        split at h
        · cases h
        case h_2 e =>
          cases h
          obtain ⟨hd, hb⟩ := append_takeDisp32 h3 e
          rw [← hd, Disp.mod_eq_zero_iff] at c
          refine ⟨hd, gprNum_gprOfNum rm, hb, ?_⟩
          simp only [MemOperand.wellFormed, Bool.and_eq_true, bne_iff_ne, Bool.or_eq_true, ne_eq, gprOfNum_eq_ebp_iff,
            gprOfNum_eq_esp_iff]
          exact ⟨⟨trivial, h4⟩, by tauto⟩
  case isFalse ha =>
    obtain rfl : a32 = false := by simpa using ha
    split at h
    case isTrue c =>
      split at h
      · cases h
      case h_2 e => cases h; exact ⟨c.1.symm, c.2.symm, append_takeWord e, rfl⟩
    case isFalse c =>
      split at h
      · cases h
      case h_2 e =>
        cases h
        obtain ⟨hd, hb⟩ := append_takeDisp16 h3 e
        rw [← hd, Disp.mod_eq_zero_iff] at c
        refine ⟨hd, base16Num_base16OfNum rm, hb, ?_⟩
        simp only [MemOperand.wellFormed, Bool.and_eq_true, bne_iff_ne, Bool.or_eq_true, ne_eq, base16OfNum_eq_bp_iff]
        exact ⟨rfl, by tauto⟩

/-! The two maps (R108, R109): each cell holds the one instruction of its layout, or is reserved (R110). -/

theorem memRow_map_layout (row op : BitVec 3) (p : List PrefixByte) (m : MemOperand) :
    (memRow row op p m).map Instr.layout =
      if Machine.reservedMem row.toNat op.toNat then none else some (.mem p row op m) := by
  induction row using idx_cases <;> induction op using idx_cases <;> rfl

theorem regRow_map_layout (row op low : BitVec 3) (p : List PrefixByte) :
    (regRow row op low p).map Instr.layout =
      if Machine.reservedReg row.toNat ((3 : BitVec 2) ++ op ++ low : Byte).toNat then none else some (.reg p row op low) := by
  induction row using idx_cases <;> induction op using idx_cases <;> induction low using idx_cases <;> rfl

theorem memRow_of_layout {i : Instr} {p : List PrefixByte} {row op : BitVec 3} {m : MemOperand}
    (h : i.layout = .mem p row op m) : memRow row op p m = some i := by
  cases i <;> cases h <;> rfl

theorem regRow_of_layout {i : Instr} {p : List PrefixByte} {row op low : BitVec 3}
    (h : i.layout = .reg p row op low) : regRow row op low p = some i := by
  cases i <;> cases h
  case faddStSti | fmulStSti | fcomSti | fcompSti | fsubStSti | fsubrStSti | fdivStSti | fdivrStSti | fldSti | fxch |
    faddStiSt | fmulStiSt | fsubrStiSt | fsubStiSt | fdivrStiSt | fdivStiSt | ffree | fstSti | fstpSti | fucom |
    fucomp | faddp | fmulp | fsubrp | fsubp | fdivrp | fdivp => induction low using idx_cases <;> rfl
  all_goals rfl

theorem eq_wait_of_layout {i : Instr} {p : List PrefixByte} (h : i.layout = .wait p) : i = .wait p := by
  cases i <;> cases h; rfl

theorem layout_of_memRow {row op : BitVec 3} {p : List PrefixByte} {m : MemOperand} {i : Instr}
    (h : memRow row op p m = some i) : i.layout = .mem p row op m := by
  have e := memRow_map_layout row op p m
  rw [h, Option.map_some] at e
  split at e
  · cases e
  · exact Option.some.inj e

theorem layout_of_regRow {row op low : BitVec 3} {p : List PrefixByte} {i : Instr}
    (h : regRow row op low p = some i) : i.layout = .reg p row op low := by
  have e := regRow_map_layout row op low p
  rw [h, Option.map_some] at e
  split at e
  · cases e
  · exact Option.some.inj e

theorem memRow_eq_none_iff (row op : BitVec 3) (p : List PrefixByte) (m : MemOperand) :
    memRow row op p m = none ↔ Machine.reservedMem row.toNat op.toNat = true := by
  rw [← Option.map_eq_none_iff (f := Instr.layout), memRow_map_layout]
  simp

theorem regRow_eq_none_iff (row op low : BitVec 3) (p : List PrefixByte) :
    regRow row op low p = none ↔ Machine.reservedReg row.toNat ((3 : BitVec 2) ++ op ++ low : Byte).toNat = true := by
  rw [← Option.map_eq_none_iff (f := Instr.layout), regRow_map_layout]
  simp

/-! The opcode bytes (R101, R107). -/

theorem extract_escByte (row : BitVec 3) :
    (escByte row).extractLsb' 3 5 = 0b11011 ∧ (escByte row).extractLsb' 0 3 = row := by
  induction row using idx_cases <;> exact ⟨rfl, rfl⟩

/-- Past the bytes that may precede it and an ESC byte the decoder is at `decodeEsc`. -/
theorem decode_escByte (a32 : Bool) (p : List PrefixByte) (row : BitVec 3) (bs : List Byte) :
    decode a32 (p.map encodePrefix ++ escByte row :: bs) = decodeEsc (addrSize32 a32 p) p row bs := by
  have ne : escByte row ≠ 0x9B ∧ ¬(escByte row = 0xF0 ∨ escByte row = 0xF2 ∨ escByte row = 0xF3) := by
    induction row using idx_cases <;> decide
  obtain ⟨hesc, hrow⟩ := extract_escByte row
  rw [decode, takePrefixes_append p (prefixByte_escByte row), decodeOpcode, if_neg ne.1, if_neg ne.2, if_pos hesc, hrow]

theorem decode_wait (a32 : Bool) (p : List PrefixByte) (bs : List Byte) :
    decode a32 (p.map encodePrefix ++ 0x9B :: bs) = .ok (.wait p, bs) := by
  rw [decode, takePrefixes_append p rfl, decodeOpcode, if_pos rfl]

theorem decodeEsc_reg {i : Instr} {p : List PrefixByte} {row op low : BitVec 3} (h : i.layout = .reg p row op low)
    (a32 : Bool) (bs : List Byte) : decodeEsc a32 p row (((3 : BitVec 2) ++ op ++ low : Byte) :: bs) = .ok (i, bs) := by
  rw [decodeEsc, extract_mod, if_pos rfl, extract_op, extract_low, regRow_of_layout h]

theorem decodeEsc_mem {i : Instr} {p : List PrefixByte} {row op : BitVec 3} {m : MemOperand}
    (h : i.layout = .mem p row op m) {a32 : Bool} (hm : m.wellFormed a32 = true) (bs : List Byte) :
    decodeEsc a32 p row (((encodeOperand m).1 ++ op ++ (encodeOperand m).2.1 : Byte) :: ((encodeOperand m).2.2 ++ bs)) =
      .ok (i, bs) := by
  rw [decodeEsc, extract_mod, if_neg (encodeOperand_mod_ne_three m), extract_op, extract_low,
    takeOperand_encodeOperand hm]
  dsimp only
  rw [memRow_of_layout h]

/-- Settles O1: by the layout of the instruction, its bytes are read by the part of the decoder for that layout. -/
theorem decodeInvertsEncode : Obligations.DecodeInvertsEncode := by
  unfold Obligations.DecodeInvertsEncode
  intro a32 i rest hw
  unfold Instr.wellFormed Layout.wellFormed at hw
  unfold encode Layout.encode
  match hl : i.layout, hw with
  | .mem p row op m, hw =>
    have hm : m.wellFormed (addrSize32 a32 p) = true := (Bool.and_eq_true _ _ ▸ hw).2
    rw [Layout.opcode2, List.append_assoc, List.cons_append, List.cons_append, decode_escByte]
    exact decodeEsc_mem hl hm rest
  | .reg p row op low, _ =>
    rw [Layout.opcode2, List.append_assoc, List.cons_append, List.cons_append, List.nil_append, decode_escByte]
    exact decodeEsc_reg hl _ rest
  | .wait p, _ =>
    rw [List.append_assoc, List.cons_append, List.nil_append, decode_wait, eq_wait_of_layout hl]

/-- What `decodeEsc` gives: an instruction of one of the two layouts, its second byte, and its operand's bytes. -/
theorem layout_of_decodeEsc {a32 : Bool} {p : List PrefixByte} {row : BitVec 3} {bs rest : List Byte} {i : Instr}
    (h : decodeEsc a32 p row bs = .ok (i, rest)) :
    (∃ op low, i.layout = .reg p row op low ∧ bs = ((3 : BitVec 2) ++ op ++ low : Byte) :: rest) ∨
      ∃ op m, i.layout = .mem p row op m ∧ m.wellFormed a32 = true ∧
        bs = ((encodeOperand m).1 ++ op ++ (encodeOperand m).2.1 : Byte) :: ((encodeOperand m).2.2 ++ rest) := by
  match bs, h with
  | b1 :: bs, h =>
    have hb := fields_append b1
    rw [decodeEsc] at h
    split at h
    case isTrue h3 =>
      split at h
      · cases h
      case h_2 e =>
        cases h
        rw [h3] at hb
        exact .inl ⟨_, _, layout_of_regRow e, by rw [hb]⟩
    case isFalse h3 =>
      split at h
      · split at h <;> cases h
      case h_2 m r e =>
        split at h
        · cases h
        case h_2 e' =>
          cases h
          obtain ⟨hmod, hrm, hbs, hwf⟩ := encodeOperand_of_takeOperand h3 e
          exact .inr ⟨_, m, layout_of_memRow e', hwf, by rw [hmod, hrm, hbs, hb]⟩

/-- Settles O2: the bytes before the opcode, the ESC byte or 9Bh, and what `decodeEsc` takes are each the encoding of
what they give. -/
theorem decodedBytesAreTheEncoding : Obligations.DecodedBytesAreTheEncoding := by
  unfold Obligations.DecodedBytesAreTheEncoding
  intro a32 bs rest i h
  have hp := append_takePrefixes bs
  rw [decode] at h
  generalize takePrefixes bs = q at h hp
  obtain ⟨p, r⟩ := q
  subst hp
  match r, h with
  | b0 :: r, h =>
    dsimp only
    rw [decodeOpcode] at h
    split at h
    case isTrue hb =>
      cases h
      subst hb
      refine ⟨by simp [encode, Instr.layout, Layout.encode], fun hle => ?_⟩
      have short : (Layout.wait p).length ≤ 15 := hle
      simp [Instr.wellFormed, Layout.wellFormed, Instr.layout, short]
    case isFalse =>
      split at h
      · cases h
      split at h
      case isTrue hesc =>
        have hb0 : escByte (b0.extractLsb' 0 3) = b0 := by
          refine BitVec.eq_of_getLsbD_eq fun k hk => ?_
          rw [escByte, ← hesc]
          simp only [BitVec.getLsbD_append, BitVec.getLsbD_extractLsb']
          interval_cases k <;> rfl
        rcases layout_of_decodeEsc h with ⟨op, low, hl, rfl⟩ | ⟨op, m, hl, hwf, rfl⟩
        · refine ⟨by simp [encode, hl, Layout.encode, Layout.opcode2, hb0], fun hle => ?_⟩
          rw [Instr.length, hl] at hle
          simp [Instr.wellFormed, hl, Layout.wellFormed, hle]
        · refine ⟨by simp [encode, hl, Layout.encode, Layout.opcode2, hb0], fun hle => ?_⟩
          rw [Instr.length, hl] at hle
          simp [Instr.wellFormed, hl, Layout.wellFormed, hle, hwf]
      case isFalse => cases h

theorem decodeEsc_reserved_reg (a32 : Bool) (p : List PrefixByte) (row : BitVec 3) {b1 : Byte} (bs : List Byte)
    (h3 : b1.extractLsb' 6 2 = 3) :
    decodeEsc a32 p row (b1 :: bs) = .error .reserved ↔ Machine.reservedReg row.toNat b1.toNat = true := by
  have hb := fields_append b1
  rw [h3] at hb
  rw [decodeEsc, if_pos h3]
  conv_rhs => rw [← hb]
  rw [← regRow_eq_none_iff row _ _ p]
  split
  case h_1 e => simp [e]
  case h_2 e => simp [e]

theorem decodeEsc_reserved_mem (a32 : Bool) (p : List PrefixByte) (row : BitVec 3) {b1 : Byte} (bs : List Byte)
    (h3 : b1.extractLsb' 6 2 ≠ 3) :
    decodeEsc a32 p row (b1 :: bs) = .error .reserved ↔
      Machine.reservedMem row.toNat (b1.extractLsb' 3 3).toNat = true := by
  rw [decodeEsc, if_neg h3]
  split
  case h_1 =>
    rw [← memRow_eq_none_iff row _ p (.disp16 0)]
    cases memRow row (b1.extractLsb' 3 3) p (.disp16 0) <;> simp
  case h_2 m r _ =>
    rw [← memRow_eq_none_iff row _ p m]
    split
    case h_1 e => simp [e]
    case h_2 e => simp [e]

/-- Settles O3: with no bytes before it the ESC byte leads to `decodeEsc`, which answers `reserved` exactly where the map
has no cell. -/
theorem reservedEncodingsAreThoseListed : Obligations.ReservedEncodingsAreThoseListed := by
  unfold Obligations.ReservedEncodingsAreThoseListed
  intro a32 row b1 bs
  have h : decode a32 (((0b11011 : BitVec 5) ++ row : BitVec 8) :: b1 :: bs) = decodeEsc (addrSize32 a32 []) [] row (b1 :: bs) :=
    decode_escByte a32 [] row (b1 :: bs)
  rw [h]
  exact ⟨decodeEsc_reserved_reg _ _ _ _, decodeEsc_reserved_mem _ _ _ _⟩

/-- Settles O4, by running the decoder on each word. -/
theorem sampleWordsDecode : Obligations.SampleWordsDecode := by
  unfold Obligations.SampleWordsDecode
  exact ⟨rfl, rfl, rfl, rfl, rfl, rfl, rfl, rfl, rfl, rfl, rfl, rfl⟩

end Sys2Proof
end

section
/-! PROOFS. Every instruction in one shape: the host's checks, the operand's transfer, then its effect on the NPX (R176). The
table `effect` says what each of the 121 instructions makes of the NPX it starts with; `exec_eq_runForm` ties it to
`exec`, and what `exec` can answer is read off the shape once. -/

namespace Sys2Proof.Machine

/-! The operands of a form in an NPX state. -/

/-- A memory operand's number, widened (R226, R227, R261). -/
def MemNumber.fetch : MemNumber → Nat → Operand80
  | .real f => widen f
  | .int n => intOperand n

/-- An operand as `binop` and `compare` take it: v is what memory holds. -/
def Source.operand (q : Source) (x : Npx) (v : Nat) : Operand80 :=
  match q with
  | .reg j => x.operand j
  | .mem k => k.fetch v
  | .posZero => { x := zeroOf false, denormal := false }

/-- The register of an operand is empty (R147); the condition is written as the instructions test it. -/
def ArithForm.vacant (a : ArithForm) (x : Npx) : Bool :=
  match a.left, a.right with
  | .reg l, .reg r => x.empty l || x.empty r
  | .reg l, _ => x.empty l
  | _, .reg r => x.empty r
  | _, _ => false

/-- ST(0), or the register it is compared with, is empty (R230 step 1). -/
def compareVacant (q : Source) (x : Npx) : Bool :=
  match q with
  | .reg j => x.empty 0 || x.empty j
  | _ => x.empty 0

/-! The rules of the stores. -/

/-- The conversion of a store of ST(0) to memory (R211, R223 to R225). -/
def converted (i : Instr) (cw : ControlWord) (v : Ext) : Result Nat :=
  match realStore i, intStore i with
  | some (f, _), _ => storeReal cw f v
  | none, some (n, _) => storeInt cw n v
  | none, none =>
    match i with
    | .fbstp _ _ => storeBcd cw v
    | _ => .ok v.toNat

/-- What a store of ST(0) with the indefinite `indef` gives (R155). -/
def storeResult (i : Instr) (indef : Nat) (x : Npx) : Result Nat :=
  if x.empty 0 then .underflow x.cw indef else converted i x.cw (x.st 0)

/-- What the instruction stores; none when it ends without a store, or stores nothing at all. -/
def written (i : Instr) (n : Nat) (fmt : ImageFormat) (x : Npx) : Option Nat :=
  match storeForm i with
  | some (indef, _) => (storeResult i indef x).val
  | none =>
    match i with
    | .fstswM16 _ _ => some x.sw.toBits.toNat
    | .fstcw _ _ => some (x.cwImage n).toNat
    | .fstenv _ _ => some (x.envImage fmt n)
    | .fsave _ _ => some (x.stateImage fmt n)
    | _ => none

/-! The rules of the pushes. -/

/-- What a pushing instruction pushes when the stack has room and its source is not empty (R201 to R208, R251 to R257). -/
def pushedValue (i : Instr) (x : Npx) (v : Nat) : Result Ext :=
  match numberLoad i with
  | some (.real f) => loadReal x.cw f v
  | some (.int n) => .ok (intToExt (8 * n) v)
  | none =>
    match i with
    | .fldM80r _ _ => .ok (BitVec.ofNat 80 v)
    | .fbld _ _ => .ok (bcdToExt v)
    | .fldSti _ j => .ok (x.st j)
    | .fld1 _ => .ok one
    | .fldl2t _ => .ok (constL2t x.cw.rc)
    | .fldl2e _ => .ok (constL2e x.cw.rc)
    | .fldpi _ => .ok (constPi x.cw.rc)
    | .fldlg2 _ => .ok (constLg2 x.cw.rc)
    | .fldln2 _ => .ok (constLn2 x.cw.rc)
    | _ => .ok (zeroOf false)

/-- The result of a pushing instruction: the stack tests first (R153, R155, R204, R229). -/
def pushResult (i : Instr) (x : Npx) (v : Nat) : Result Ext :=
  match i with
  | .fldSti _ j =>
    if x.empty j then .underflow x.cw qnanIndef
    else if x.full then .overflow x.cw qnanIndef
    else pushedValue i x v
  | _ => if x.full then .overflow x.cw qnanIndef else pushedValue i x v

/-! The effect of every instruction. -/

/-- The effect of the instructions that are neither pushes nor arithmetic, comparisons or stores of ST(0): n is the draw
counter, fmt the image format in effect, v the number the memory operand holds. -/
def otherEffect (i : Instr) (n : Nat) (fmt : ImageFormat) (v : Nat) (x : Npx) : Npx :=
  match i with
  | .fsqrt _ => x.replaceTop n (sqrtResult x.cw)
  | .frndint _ => x.replaceTop n (rndintResult x.cw)
  | .f2xm1 _ => x.replaceTop n (exp2m1Result x.cw n)
  | .fsin _ => x.trig n (trigResult x.cw .sin sinSign fun y => y)
  | .fcos _ => x.trig n (trigResult x.cw .cos cosSign fun _ => one)
  | .fscale _ => x.fscale n
  | .fprem _ => x.prem n false
  | .fprem1 _ => x.prem n true
  | .fpatan _ => x.popInto1 n (atanResult x.cw)
  | .fyl2x _ => x.popInto1 n (yl2xResult x.cw)
  | .fyl2xp1 _ => x.popInto1 n (yl2xp1Result x.cw n)
  | .fxtract _ => x.fxtract n
  | .fptan _ => x.trigPair n (tanResult x.cw)
  | .fsincos _ => x.trigPair n (sincosResult x.cw)
  | .fabs _ => x.setSign n false
  | .fchs _ => x.setSign n (!signOf (x.st 0))
  | .fstSti _ j => x.copyTo n j 0
  | .fstpSti _ j => x.copyTo n j 1
  | .fxch _ j => x.fxch n j
  | .fxam _ => x.fxam
  | .fincstp _ => x.moveTop n 1
  | .fdecstp _ => x.moveTop n 7
  | .ffree _ j => (x.setTag (x.phys j) .empty).undefAll n
  | .fldcw _ _ => x.loadCw n v
  | .fclex _ => (x.withSw x.sw.clearExceptions).undefAll n
  | .fstenv _ _ => x.maskAll.undefAll n
  | .fldenv _ _ => x.envLoad fmt v n
  | .frstor _ _ => x.restore fmt v n
  | .finit _ | .fsave _ _ => x.init
  | .fnop _ | .fstswM16 _ _ | .fstswAx _ | .fstcw _ _ => x.undefAll n
  | _ => x

/-- What instruction i makes of the NPX x it starts with, when it runs to its end. -/
def effect (i : Instr) (n : Nat) (fmt : ImageFormat) (v : Nat) (x : Npx) : Npx :=
  if pushesOne i then (x.deliverPush n (pushResult i x v)).undefCc n
  else
    match arithForm i with
    | some a => x.arith n a.op (a.vacant x) (a.left.operand x v) (a.right.operand x v) (x.phys a.dest) a.pops
    | none =>
      match compareForm i with
      | some (q, pops) => x.compareWith n pops (ordered i) (compareVacant q x) (q.operand x v)
      | none =>
        match storeForm i with
        | some (indef, pops) => x.stored n pops (storeResult i indef x)
        | none => otherEffect i n fmt v x

/-! The shape. -/

/-- EAX after an instruction that ran: FSTSW AX alone writes it (R322). -/
def eaxAfter (i : Instr) (eax : DWord) (w : StatusWord) : DWord :=
  match i with
  | .fstswAx _ => (eax.extractLsb' 16 16 ++ w.toBits : BitVec 32)
  | _ => eax

/-- FNINIT ends the effect of interrupt 9 (R413). -/
def overrunAfter (i : Instr) (overrun : Bool) : Bool :=
  match i with
  | .finit _ => false
  | _ => overrun

/-- The state instruction i leaves but for its store: x is the NPX it started with, v its operand. -/
def State.finish (s : State) (i : Instr) (v : Nat) (x : Npx) : State :=
  { s with
    npx := effect i s.draws (s.format i) v x,
    cpu := { s.cpu with
      eip := s.cpu.eip + BitVec.ofNat 32 i.length, eax := eaxAfter i s.cpu.eax x.sw },
    draws := s.draws + 1, overrun := overrunAfter i s.overrun }

/-- FBLD of a digit above 9, with room on the stack (R228, log 25). -/
def badDigit (i : Instr) (v : Nat) (x : Npx) : Bool :=
  match i with
  | .fbld _ _ => !x.full && hasBadDigit v
  | _ => false

/-- The end of an instruction that stores nothing, refused where the spec leaves it open (R40, R228). -/
def State.guarded (s : State) (i : Instr) (v : Nat) (x : Npx) : Outcome :=
  if usesPrecision i then withPrecision x (.next (s.finish i v x))
  else if badDigit i v x then .refused .invalidBcdDigit
  else .next (s.finish i v x)

/-- R176 for every ESC instruction. -/
def runForm (i : Instr) (s : State) : Outcome :=
  startEsc i (operandOf s i) s fun x =>
    match operandOf s i with
    | none => s.guarded i 0 x
    | some o =>
      if stores i then
        match written i s.draws (s.format i) x with
        | none => .next (s.finish i 0 x)
        | some v => writeOperand o s v (s.finish i 0 x)
      else readOperand o s fun v => s.guarded i v x

/-- The instruction is an ESC instruction: every one but WAIT (R106). -/
def isEsc : Instr → Bool
  | .wait _ => false
  | _ => true

theorem isEsc_iff (i : Instr) : isEsc i = true ↔ ∀ p, i ≠ .wait p := by
  constructor
  · rintro h p rfl; cases h
  · intro h
    cases i with
    | wait p => exact absurd rfl (h p)
    | _ => rfl

/-- A reversed memory form of arithmetic has the shape when `finish` is what it leaves. -/
theorem arithMem_reversed_eq_runForm {i : Instr} {m : MemOperand} {bytes : Nat} {fetch : Nat → Operand80} {op : ArithOp}
    {s : State} (ho : operandOf s i = some (s.cpu.operand i.prefixes m bytes)) (hs : stores i = false)
    (hp : usesPrecision i = true)
    (hf : ∀ v x, s.finish i v x =
      s.complete i (x.arith s.draws op (x.empty 0) (fetch v) (x.operand 0) (x.phys 0) 0)) :
    arithMem i m bytes fetch op true s = runForm i s := by
  simp only [arithMem, runForm, ho, hs, State.guarded, hp, hf, Bool.false_eq_true, if_false, if_true]

/-- Every ESC instruction has the shape, by its definition. (The reversed memory forms go through the lemma
that names the state they leave; without it the kernel is slow to find that the two sides leave the same one.) -/
theorem exec_eq_runForm {i : Instr} (s : State) (h : isEsc i = true) : exec i s = runForm i s := by
  cases i
  case wait => cases h
  case fsubrM32r | fsubrM64r | fisubrM16i | fisubrM32i | fdivrM32r | fdivrM64r | fidivrM16i | fidivrM32i =>
    exact arithMem_reversed_eq_runForm rfl rfl rfl fun _ _ => rfl
  all_goals rfl

/-! The NPX an instruction works on. -/

/-- The NPX as the instruction's own rule finds it: WAIT leaves the pointers (R336, R176 step 2). -/
def State.entry (s : State) (i : Instr) : Npx := if isEsc i then s.started i (operandOf s i) else s.npx

@[simp] theorem State.entry_cw (s : State) (i : Instr) : (s.entry i).cw = s.npx.cw := by
  unfold State.entry; split <;> simp
@[simp] theorem State.entry_sw (s : State) (i : Instr) : (s.entry i).sw = s.npx.sw := by
  unfold State.entry; split <;> simp
@[simp] theorem State.entry_regs (s : State) (i : Instr) : (s.entry i).regs = s.npx.regs := by
  unfold State.entry; split <;> simp
@[simp] theorem State.entry_tags (s : State) (i : Instr) : (s.entry i).tags = s.npx.tags := by
  unfold State.entry; split <;> simp
@[simp] theorem State.entry_reg (s : State) (i : Instr) (k : Idx) : (s.entry i).reg k = s.npx.reg k := by simp [Npx.reg]
@[simp] theorem State.entry_tag (s : State) (i : Instr) (k : Idx) : (s.entry i).tag k = s.npx.tag k := by simp [Npx.tag]
@[simp] theorem State.entry_phys (s : State) (i : Instr) (k : Idx) : (s.entry i).phys k = s.npx.phys k := by
  simp [Npx.phys]
@[simp] theorem State.entry_st (s : State) (i : Instr) (k : Idx) : (s.entry i).st k = s.npx.st k := by simp [Npx.st]
@[simp] theorem State.entry_empty (s : State) (i : Instr) (k : Idx) : (s.entry i).empty k = s.npx.empty k := by
  simp [Npx.empty]
@[simp] theorem State.entry_full (s : State) (i : Instr) : (s.entry i).full = s.npx.full := by simp [Npx.full]

theorem State.entry_of_isEsc {i : Instr} (h : isEsc i = true) (s : State) : s.entry i = s.started i (operandOf s i) :=
  if_pos h

/-! The state an instruction leaves when it runs to its end. -/

/-- What instruction i stores from s, if it stores. -/
def State.stored (s : State) (i : Instr) : Option Nat := written i s.draws (s.format i) (s.entry i)

/-- Memory after the instruction's store (R81). -/
def State.memAfter (s : State) (i : Instr) : Memory :=
  match s.stored i, operandOf s i with
  | some v, some o => s.mem.writeAll v o.addrs
  | _, _ => s.mem

/-- The NPX after the instruction. -/
def State.npxAfter (s : State) (i : Instr) : Npx := effect i s.draws (s.format i) (operandBytes s i) (s.entry i)

/-- The state after the instruction. -/
def State.ran (s : State) (i : Instr) : State :=
  { s.finish i (operandBytes s i) (s.entry i) with mem := s.memAfter i }

@[simp] theorem State.ran_npx (s : State) (i : Instr) : (s.ran i).npx = s.npxAfter i := rfl
@[simp] theorem State.ran_mem (s : State) (i : Instr) : (s.ran i).mem = s.memAfter i := rfl
@[simp] theorem State.ran_bus (s : State) (i : Instr) : (s.ran i).bus = s.bus := rfl
@[simp] theorem State.ran_overrun (s : State) (i : Instr) : (s.ran i).overrun = overrunAfter i s.overrun := rfl
@[simp] theorem State.ran_cpu (s : State) (i : Instr) :
    (s.ran i).cpu = { s.cpu with
      eip := s.cpu.eip + BitVec.ofNat 32 i.length, eax := eaxAfter i s.cpu.eax s.npx.sw } := by
  simp [State.ran, State.finish]

theorem eaxAfter_eq {i : Instr} (h : ∀ p, i ≠ .fstswAx p) (eax : DWord) (w : StatusWord) : eaxAfter i eax w = eax := by
  cases i with
  | fstswAx p => exact absurd rfl (h p)
  | _ => rfl

theorem written_of_not_stores {i : Instr} (h : stores i = false) (n : Nat) (fmt : ImageFormat) (x : Npx) :
    written i n fmt x = none := by
  cases i <;> cases h <;> rfl

/-- No store looks at what memory held. -/
theorem effect_of_stores {i : Instr} (h : stores i = true) (n : Nat) (fmt : ImageFormat) (v : Nat) (x : Npx) :
    effect i n fmt v x = effect i n fmt 0 x := by
  cases i <;> cases h <;> rfl

theorem operandOf_of_stores {i : Instr} (h : stores i = true) (s : State) : ∃ o, operandOf s i = some o := by
  cases i <;> cases h <;> exact ⟨_, rfl⟩

theorem State.memAfter_of_not_stores {i : Instr} (h : stores i = false) (s : State) : s.memAfter i = s.mem := by
  rw [State.memAfter, State.stored, written_of_not_stores h]

theorem State.memAfter_of_none {i : Instr} {s : State} (h : s.stored i = none) : s.memAfter i = s.mem := by
  rw [State.memAfter, h]

theorem State.memAfter_of_some {i : Instr} {s : State} {v : Nat} {o : Operand} (h : s.stored i = some v)
    (ho : operandOf s i = some o) : s.memAfter i = s.mem.writeAll v o.addrs := by
  rw [State.memAfter, h, ho]

theorem operandBytes_eq {i : Instr} {s : State} {o : Operand} (ho : operandOf s i = some o) :
    operandBytes s i = s.mem.readAll o.addrs := by
  rw [operandBytes, ho]

/-! What `exec` can answer. -/

/-- The interrupt that is due before instruction i (R410 to R412, R414; of WAIT R336). -/
def due (i : Instr) (s : State) : Option InterruptVector :=
  match i with
  | .wait _ => if s.cpu.ts then some .v7 else if s.npx.sw.es then some .v16 else none
  | i => hostCheck i (operandOf s i) s

theorem due_of_isEsc {i : Instr} (h : isEsc i = true) (s : State) : due i s = hostCheck i (operandOf s i) s := by
  cases i with
  | wait p => cases h
  | _ => rfl

theorem exec_wait (p : List PrefixByte) (s : State) :
    exec (.wait p) s =
      match due (.wait p) s with
      | some v => .next (s.raise v)
      | none => .next (s.ran (.wait p)) := by
  show execWait p s = _
  unfold execWait due
  cases s.cpu.ts <;> cases s.npx.sw.es <;> rfl

/-- An interrupt that is due is all that the instruction does. -/
theorem exec_of_due {i : Instr} {s : State} {v : InterruptVector} (h : due i s = some v) :
    exec i s = .next (s.raise v) := by
  cases hi : isEsc i with
  | true =>
    rw [due_of_isEsc hi] at h
    rw [exec_eq_runForm s hi, runForm, startEsc_of_some _ h]
  | false =>
    cases i with
    | wait p => rw [exec_wait, h]
    | _ => cases hi

/-- The instruction is past every check of the host (R176 steps 1 and 2). -/
def Passes (i : Instr) (s : State) : Prop := due i s = none ∧ (operandOf s i).any Operand.segmentFault = false

theorem Passes.starts {i : Instr} {s : State} (hi : isEsc i = true) (h : Passes i s) : Starts i (operandOf s i) s :=
  ⟨(due_of_isEsc hi s).symm.trans h.1, h.2⟩

theorem passes_of_starts {i : Instr} {s : State} (h : Starts i (operandOf s i) s) : Passes i s := by
  refine ⟨?_, h.2⟩
  cases hi : isEsc i with
  | true => exact (due_of_isEsc hi s).trans h.1
  | false =>
    obtain ⟨-, hts, hes, -⟩ := (hostCheck_eq_none i _ s).1 h.1
    cases i with
    | wait p =>
      have hes' : s.npx.sw.es = false := hes.resolve_right Bool.false_ne_true
      simp [due, hts, hes']
    | _ => cases hi

/-- Past the host's checks the shape is the transfer of the operand. -/
theorem exec_of_passes {i : Instr} {s : State} (h : Passes i s) :
    exec i s =
      match operandOf s i with
      | none => s.guarded i 0 (s.entry i)
      | some o =>
        if stores i then
          match s.stored i with
          | none => .next (s.finish i 0 (s.entry i))
          | some v => writeOperand o s v (s.finish i 0 (s.entry i))
        else readOperand o s fun v => s.guarded i v (s.entry i) := by
  cases hi : isEsc i with
  | true =>
    rw [exec_eq_runForm s hi, runForm, startEsc_of_starts _ (h.starts hi), State.stored, State.entry_of_isEsc hi]
  | false =>
    cases i with
    | wait p => rw [exec_wait, h.1]; rfl
    | _ => cases hi

theorem State.finish_zero_of_not_mem {i : Instr} {s : State} (ho : operandOf s i = none) :
    s.finish i 0 (s.entry i) = s.ran i := by
  rw [State.ran, State.memAfter, operandBytes, ho]
  cases s.stored i <;> rfl

theorem State.finish_of_not_stores {i : Instr} (hs : stores i = false) {s : State} {o : Operand}
    (ho : operandOf s i = some o) : s.finish i (s.mem.readAll o.addrs) (s.entry i) = s.ran i := by
  rw [State.ran, State.memAfter_of_not_stores hs, operandBytes_eq ho]
  rfl

theorem State.finish_of_stores {i : Instr} (hs : stores i = true) (s : State) :
    { s.finish i 0 (s.entry i) with mem := s.memAfter i } = s.ran i := by
  simp only [State.ran, State.finish, effect_of_stores hs _ _ (operandBytes s i)]

/-- Interrupt 9 during the transfer of the operand of i (R413). -/
def State.overrunBy (s : State) (i : Instr) (o : Operand) : State :=
  s.segmentOverrun (if stores i then s.cpu.accessibleAddrs o true else [])

/-- The instruction meets a segment overrun: it has passed the checks, must transfer its operand, and cannot (R92, R413). -/
def Overruns (i : Instr) (s : State) (o : Operand) : Prop :=
  Passes i s ∧ operandOf s i = some o ∧ s.cpu.transfer o (stores i) = .overrun ∧
    (stores i = true → (s.stored i).isSome = true)

theorem State.guarded_next {s t : State} {i : Instr} {v : Nat} {x : Npx} (h : s.guarded i v x = .next t) :
    t = s.finish i v x := by
  unfold State.guarded withPrecision at h
  repeat' split at h
  all_goals first | exact (Host.Outcome.next.inj h).symm | cases h

/-- Everything `exec` can answer as a next state: an interrupt that was due, interrupt 9, or the instruction ran to its
end. -/
theorem exec_next {i : Instr} {s t : State} (h : exec i s = .next t) :
    (∃ v, due i s = some v ∧ t = s.raise v) ∨ (∃ o, Overruns i s o ∧ t = s.overrunBy i o) ∨ (Passes i s ∧ t = s.ran i) := by
  cases hd : due i s with
  | some v =>
    rw [exec_of_due hd] at h
    exact .inl ⟨v, rfl, (Host.Outcome.next.inj h).symm⟩
  | none =>
    cases hf : (operandOf s i).any Operand.segmentFault with
    | true =>
      have hi : isEsc i = true := by
        cases i with
        | wait p => cases hf
        | _ => rfl
      rw [due_of_isEsc hi] at hd
      rw [exec_eq_runForm s hi, runForm, startEsc, hd, hf] at h
      cases h
    | false =>
      have hp : Passes i s := ⟨hd, hf⟩
      rw [exec_of_passes hp] at h
      refine .inr ?_
      cases ho : operandOf s i with
      | none =>
        rw [ho] at h
        exact .inr ⟨hp, by rw [State.guarded_next h, State.finish_zero_of_not_mem ho]⟩
      | some o =>
        rw [ho] at h
        cases hs : stores i with
        | false =>
          simp only [hs, Bool.false_eq_true, if_false] at h
          rcases readOperand_next h with ⟨-, h⟩ | ⟨ht, rfl⟩
          · exact .inr ⟨hp, by rw [State.guarded_next h, State.finish_of_not_stores hs ho]⟩
          · exact .inl ⟨o, ⟨hp, ho, by rw [hs]; exact ht, by simp [hs]⟩, by simp [State.overrunBy, hs]⟩
        | true =>
          simp only [hs, if_true] at h
          cases hv : s.stored i with
          | none =>
            rw [hv] at h
            refine .inr ⟨hp, ?_⟩
            rw [← State.finish_of_stores hs, State.memAfter_of_none hv]
            exact (Host.Outcome.next.inj h).symm
          | some v =>
            rw [hv] at h
            rcases writeOperand_next h with ⟨-, rfl⟩ | ⟨ht, rfl⟩
            · exact .inr ⟨hp, by rw [← State.finish_of_stores hs, State.memAfter_of_some hv ho]⟩
            · exact .inl ⟨o, ⟨hp, ho, by rw [hs]; exact ht, by simp [hv]⟩, by simp [State.overrunBy, hs]⟩

/-- An instruction that raised nothing ran to its end. -/
theorem eq_ran_of_next {i : Instr} {s t : State} (h : exec i s = .next t) (ht : t.cpu.interrupt = none) : t = s.ran i := by
  rcases exec_next h with ⟨v, -, rfl⟩ | ⟨o, -, rfl⟩ | ⟨-, rfl⟩
  · cases ht
  · cases ht
  · rfl

theorem exec_of_overruns {i : Instr} {s : State} {o : Operand} (h : Overruns i s o) :
    exec i s = .next (s.overrunBy i o) := by
  obtain ⟨hp, ho, ht, hv⟩ := h
  rw [exec_of_passes hp, ho, State.overrunBy]
  cases hs : stores i with
  | false =>
    rw [hs] at ht
    simp only [Bool.false_eq_true, if_false, readOperand, ht]
  | true =>
    rw [hs] at ht
    obtain ⟨v, hv⟩ := Option.isSome_iff_exists.1 (hv hs)
    simp only [if_true, hv, writeOperand, ht]

/-- Nothing of the instruction is left open by the spec (R40, R228). -/
theorem State.guarded_of_operable {i : Instr} {s : State} (h : operable s i = true) :
    s.guarded i (operandBytes s i) (s.entry i) = .next (s.finish i (operandBytes s i) (s.entry i)) := by
  simp only [operable, Bool.and_eq_true, Bool.not_eq_true', Bool.and_eq_false_iff] at h
  obtain ⟨⟨-, hpc⟩, hd⟩ := h
  have hb : badDigit i (operandBytes s i) (s.entry i) = false := by
    cases i with
    | fbld p m =>
      have hd : hasBadDigit (operandBytes s (.fbld p m)) = false := by simpa using hd
      simp [badDigit, hd]
    | _ => rfl
  unfold State.guarded withPrecision
  rw [State.entry_cw]
  cases hu : usesPrecision i with
  | false => simp [hb]
  | true =>
    have : s.npx.cw.pc ≠ 1 := by simpa [hu] using hpc
    rw [if_pos rfl]
    exact if_neg this

/-- An operable instruction runs to its end (R24, R176). -/
theorem exec_of_operable {i : Instr} {s : State} (h : operable s i = true) : exec i s = .next (s.ran i) := by
  have hacc : accessOk s i = true := by
    simp only [operable, Bool.and_eq_true] at h
    exact h.1.1.2
  have hg := State.guarded_of_operable h
  rw [exec_of_passes (passes_of_starts (starts_of_operable h))]
  cases ho : operandOf s i with
  | none =>
    rw [operandBytes, ho] at hg
    exact hg.trans (congrArg _ (State.finish_zero_of_not_mem ho))
  | some o =>
    simp only [accessOk, ho, Bool.and_eq_true, beq_iff_eq] at hacc
    obtain ⟨-, ht⟩ := hacc
    cases hs : stores i with
    | false =>
      rw [hs] at ht
      rw [operandBytes_eq ho] at hg
      simp only [Bool.false_eq_true, if_false]
      rw [readOperand_ok _ ht, hg, State.finish_of_not_stores hs ho]
    | true =>
      rw [hs] at ht
      simp only [if_true]
      cases hv : s.stored i with
      | none =>
        refine congrArg Host.Outcome.next ?_
        rw [← State.finish_of_stores hs, State.memAfter_of_none hv]
        rfl
      | some v =>
        simp only
        rw [writeOperand_ok _ ht, ← State.finish_of_stores hs, State.memAfter_of_some hv ho]

end Sys2Proof.Machine
end

section
/-! PROOFS. Fetching and stepping (spec/30_encoding.md R107, spec/10_state.md R24): the bytes at CS:EIP, the interrupt 7
that comes before them, and the step from a fetched instruction. -/

namespace Sys2Proof.Machine

/-! The opcode byte of an instruction (R101, R106). -/

/-- The byte after the bytes of R105: 11011 in its upper bits, or 9Bh. -/
def OpensNpx (b0 : Byte) : Prop := b0.extractLsb' 3 5 = 0b11011 ∨ b0 = 0x9B

/-- No byte of R105 opens an instruction. -/
theorem OpensNpx.prefixByte_eq_none {b0 : Byte} (h : OpensNpx b0) : prefixByte b0 = none := by
  cases hq : prefixByte b0 with
  | none => rfl
  | some q =>
    rw [← encodePrefix_of_prefixByte hq] at h
    rcases h with h | h <;> cases q with
    | seg r => cases r <;> cases h
    | _ => cases h

/-- The bytes of an instruction: those before the opcode, then the opcode byte, an ESC unless the instruction is WAIT. -/
theorem encode_eq_opening (i : Instr) :
    ∃ b0 tail, encode i = i.prefixes.map encodePrefix ++ b0 :: tail ∧
      ((isEsc i = true ∧ b0.extractLsb' 3 5 = 0b11011) ∨ (∃ p, i = .wait p ∧ b0 = 0x9B)) := by
  have hw {p : List PrefixByte} : i.layout = .wait p → i = .wait p := eq_wait_of_layout
  have he (hne : ∀ p, i.layout ≠ .wait p) : isEsc i = true := by
    rw [isEsc_iff]
    rintro p rfl
    exact hne p rfl
  unfold encode Instr.prefixes Layout.encode
  match hl : i.layout with
  | .mem p row op m => exact ⟨_, _, rfl, .inl ⟨he (by simp [hl]), (extract_escByte row).1⟩⟩
  | .reg p row op low => exact ⟨_, _, rfl, .inl ⟨he (by simp [hl]), (extract_escByte row).1⟩⟩
  | .wait p => exact ⟨_, [], rfl, .inr ⟨p, hw hl, rfl⟩⟩

theorem length_encode (i : Instr) : (encode i).length = i.length := Laws.encodedLength_all i

/-! What fetching looks at. -/

theorem State.codeStored_eq_false_iff {s : State} {n : Nat} :
    s.codeStored n = false ↔ ∀ k, k < n → s.codeAddr k ∉ s.mem.npxStored := by
  simp [State.codeStored]

/-- Interrupt 7 and the bytes looked at for it, read off the bytes at CS:EIP. -/
theorem State.opening_of_code {s : State} {p : List PrefixByte} {b0 : Byte} {rest : List Byte}
    (h : s.code = p.map encodePrefix ++ b0 :: rest) (hb : OpensNpx b0) :
    s.meetsSeven = s.cpu.notAvailable b0 ∧ s.openingLength = p.length + 1 := by
  have ht : takePrefixes s.code = (p, b0 :: rest) := h ▸ takePrefixes_append p hb.prefixByte_eq_none rest
  simp [State.meetsSeven, State.openingLength, ht]

/-- With EM and TS clear no byte takes interrupt 7 (R410). -/
theorem State.meetsSeven_of_clear {s : State} (hem : s.cpu.em = false) (hts : s.cpu.ts = false) :
    s.meetsSeven = false := by
  have h (b : Byte) : s.cpu.notAvailable b = false := by simp [Cpu.notAvailable, hem, hts]
  unfold State.meetsSeven
  cases (takePrefixes s.code).2.head? <;> simp [h]

/-- Bytes that stand at CS:EIP, readable, are the first ones the host decodes. -/
theorem State.codeFrom_of_bytes {s : State} (l : List Byte) (n k : Nat) (hn : l.length ≤ n)
    (h : ∀ j, j < l.length → s.codeInLimit (k + j) = true ∧ s.cpu.accessible false (s.codeAddr (k + j)) = true ∧
      s.mem.read (s.codeAddr (k + j)) = l.getD j 0) :
    ∃ rest, s.codeFrom n k = l ++ rest := by
  induction l generalizing n k with
  | nil => exact ⟨_, rfl⟩
  | cons b l ih =>
    match n, hn with
    | n + 1, hn =>
      obtain ⟨hlim, hacc, hread⟩ := h 0 (Nat.succ_pos _)
      rw [Nat.add_zero] at hlim hacc hread
      obtain ⟨rest, hr⟩ := ih n (k + 1) (Nat.le_of_succ_le_succ hn) fun j hj => by
        have := h (j + 1) (Nat.succ_lt_succ hj)
        rwa [show k + (j + 1) = k + 1 + j by omega, List.getD_cons_succ] at this
      refine ⟨rest, ?_⟩
      rw [State.codeFrom, hlim, hacc, hread, hr]
      rfl

/-! The step (R17). -/

theorem step_of_instr {s : State} {i : Instr} (h : s.cpu.interrupt = none) (hf : s.fetch = .instr i) :
    step s = exec i s := by
  simp only [step, h, hf]

theorem step_of_trap7 {s : State} (h : s.cpu.interrupt = none) (hf : s.fetch = .trap7) :
    step s = .next (s.raise .v7) := by
  simp only [step, h, hf]

theorem step_of_refused {s : State} {r : Refusal} (h : s.cpu.interrupt = none) (hf : s.fetch = .refused r) :
    step s = .refused r := by
  simp only [step, h, hf]

/-- With TS, or of an ESC instruction EM, interrupt 7 is due (R410). -/
theorem due_seven {i : Instr} {s : State} (h : s.cpu.ts = true ∨ (s.cpu.em = true ∧ ∀ p, i ≠ .wait p)) :
    due i s = some .v7 := by
  cases hi : isEsc i with
  | true =>
    have : (s.cpu.em || s.cpu.ts) = true := by
      rcases h with h | ⟨h, -⟩ <;> simp [h]
    rw [due_of_isEsc hi]
    unfold hostCheck
    rw [this, if_pos rfl]
  | false =>
    cases i with
    | wait p => rcases h with h | ⟨-, h⟩ <;> simp_all [due]
    | _ => cases hi

/-- The opcode byte of an instruction meets interrupt 7 exactly when the instruction is due to raise it. -/
theorem due_seven_of_notAvailable {i : Instr} {s : State} {b0 : Byte}
    (hb : (isEsc i = true ∧ b0.extractLsb' 3 5 = 0b11011) ∨ (∃ p, i = .wait p ∧ b0 = 0x9B))
    (h : s.cpu.notAvailable b0 = true) : due i s = some .v7 := by
  refine due_seven ?_
  rcases hb with ⟨hi, hb⟩ | ⟨p, rfl, rfl⟩
  · have hne : b0 ≠ 155#8 := by rintro rfl; cases hb
    have : s.cpu.em = true ∨ s.cpu.ts = true := by simpa [Cpu.notAvailable, hb, hne] using h
    exact this.elim (fun h => .inr ⟨h, (isEsc_iff i).1 hi⟩) .inl
  · exact .inl (by simpa [Cpu.notAvailable] using h)

theorem opensNpx_of_opening {i : Instr} {b0 : Byte}
    (hb : (isEsc i = true ∧ b0.extractLsb' 3 5 = 0b11011) ∨ (∃ p, i = .wait p ∧ b0 = 0x9B)) : OpensNpx b0 := by
  rcases hb with ⟨-, hb⟩ | ⟨p, -, hb⟩
  · exact .inl hb
  · exact .inr hb

/-- A step runs what decodes: where interrupt 7 comes first, the instruction would only raise it too. -/
theorem step_of_decode {s : State} {i : Instr} {rest : List Byte} (hint : s.cpu.interrupt = none)
    (hd : decode s.cpu.adSize32 s.code = .ok (i, rest)) (hst : ∀ k, k < i.length → s.codeAddr k ∉ s.mem.npxStored)
    (hlim : s.codeInLimit i.length = true) : step s = exec i s := by
  obtain ⟨b0, tail, henc, hb⟩ := encode_eq_opening i
  have hcode : s.code = i.prefixes.map encodePrefix ++ b0 :: (tail ++ rest) := by
    rw [← (decodedBytesAreTheEncoding _ _ _ _ hd).1, henc, List.append_assoc, List.cons_append]
  obtain ⟨hm, hlen⟩ := State.opening_of_code hcode (opensNpx_of_opening hb)
  cases hn : s.cpu.notAvailable b0 with
  | true =>
    have hle : s.openingLength ≤ i.length := by
      rw [hlen, ← length_encode i, henc, List.length_append, List.length_map, List.length_cons]
      omega
    have hs : s.codeStored s.openingLength = false :=
      State.codeStored_eq_false_iff.2 fun k hk => hst k (hk.trans_le hle)
    rw [step_of_trap7 hint (State.fetch_eq_trap7_iff.2 ⟨hm.trans hn, hs⟩), exec_of_due (due_seven_of_notAvailable hb hn)]
  | false =>
    exact step_of_instr hint
      (State.fetch_eq_instr_iff.2 ⟨hm.trans hn, ⟨rest, hd⟩, State.codeStored_eq_false_iff.2 hst, hlim⟩)

/-- Settles O5: `step_of_decode`; from memory, what is decoded begins with the encoding, which decodes to the instruction;
at a boundary `fetch` answers the refusal. -/
theorem stepRunsDecodedInstruction : Obligations.StepRunsDecodedInstruction := by
  unfold Obligations.StepRunsDecodedInstruction
  refine ⟨fun s i rest hint hd hst hlim => step_of_decode hint hd hst hlim, fun s i hint hw h hlim => ?memory,
    fun s i rest hint hem hts hd hst hend => ?boundary⟩
  case memory =>
    have hlen : i.length ≤ 15 := by
      simp only [Instr.wellFormed, Layout.wellFormed, Bool.and_eq_true, decide_eq_true_eq] at hw
      exact hw.1
    obtain ⟨rest, hcode⟩ := State.codeFrom_of_bytes (s := s) (encode i) maxLength 0 ((length_encode i).trans_le hlen)
      fun j hj => by
        obtain ⟨hl, ha, -, hr⟩ := h j (length_encode i ▸ hj)
        rw [Nat.zero_add]
        exact ⟨hl, ha, hr⟩
    have hd : decode s.cpu.adSize32 s.code = .ok (i, rest) := by
      rw [State.code, hcode]
      exact decodeInvertsEncode _ i rest hw
    exact step_of_decode hint hd (fun k hk => (h k hk).2.2.1) hlim
  case boundary =>
    have hf : s.fetch = .refused .codeSegmentEnd := by
      rw [State.fetch, State.meetsSeven_of_clear hem hts, if_neg Bool.false_ne_true, hd]
      dsimp only
      rw [State.codeStored_eq_false_iff.2 hst, State.codeInLimit_eq_false_iff.2 hend]
      rfl
    exact step_of_refused hint hf

/-- Settles O6: a pending interrupt is all that `step` looks at. -/
theorem stepEntersHandler : Obligations.StepEntersHandler := by
  unfold Obligations.StepEntersHandler
  intro s t ht
  have hstep : step s = s.enterHandler t := by rw [step, ht]
  refine ⟨fun h hh => ?_, fun hh => ?_⟩ <;> rw [hstep, State.enterHandler, hh]

/-- Settles O16: `exec_of_due` at `due_seven`; the step answers it once the opcode byte is known, and with EM and TS clear
it answers what the decoder found. -/
theorem interruptSeven : Obligations.InterruptSeven := by
  unfold Obligations.InterruptSeven
  refine ⟨fun i s h => exec_of_due (due_seven h), fun s p b0 rest hint hcode hb hst => ?opcode,
    fun s hint hd hst hem hts => ?reserved⟩
  case opcode =>
    have hopen : OpensNpx b0 := hb.imp And.left And.left
    have hna : s.cpu.notAvailable b0 = true := by
      rcases hb with ⟨hb, h | h⟩ | ⟨rfl, h⟩ <;> simp [Cpu.notAvailable, *]
    obtain ⟨hm, hlen⟩ := State.opening_of_code hcode hopen
    have hs : s.codeStored s.openingLength = false :=
      State.codeStored_eq_false_iff.2 fun k hk => hst k (Nat.le_of_lt_succ (hk.trans_eq hlen))
    exact step_of_trap7 hint (State.fetch_eq_trap7_iff.2 ⟨hm.trans hna, hs⟩)
  case reserved =>
    have hf : s.fetch = .refused .reservedEncoding := by
      rw [State.fetch, State.meetsSeven_of_clear hem hts, if_neg Bool.false_ne_true, hd]
      dsimp only
      rw [State.codeStored_eq_false_iff.2 hst]
      rfl
    exact step_of_refused hint hf

/-! Reset and FNINIT (R61, R321). -/

/-- Every register is empty where every tag is that of reset. -/
theorem tag_reset (k : Idx) {x : Npx} (h : x.tags = Npx.reset.tags) : x.tag k = .empty := by
  have : x.tag k = Npx.reset.tag k := by simp only [Npx.tag, h]
  rw [this]
  induction k using idx_cases <;> rfl

/-- Settles O7: memory is empty, ES and B are those of the one flag set, and no register has a tag. -/
theorem resetMeetsInvariant : Obligations.ResetMeetsInvariant := by
  unfold Obligations.ResetMeetsInvariant
  exact ⟨rfl, .inr ⟨⟨rfl, rfl⟩, fun k hk => absurd (tag_reset k rfl) hk⟩⟩

/-- SW is 0000h after FNINIT (R61). -/
theorem statusWord_init_toBits : StatusWord.init.toBits = 0 := by decide

/-- FNINIT is past the host's checks with EM and TS clear (R411). -/
theorem starts_finit {s : State} (p : List PrefixByte) (hem : s.cpu.em = false) (hts : s.cpu.ts = false) :
    Starts (.finit p) none s := (starts_iff _ _ _).2 ⟨hem, hts, .inr rfl, nofun⟩

/-- Settles O9: the reset values by computation; FNINIT leaves `Npx.init`. -/
theorem resetAndFninitValues : Obligations.ResetAndFninitValues := by
  unfold Obligations.ResetAndFninitValues
  refine ⟨⟨rfl, rfl, fun k => tag_reset k rfl, rfl, rfl, rfl⟩, fun s p hem hts => ?_⟩
  have run : exec (.finit p) s =
      .next { s.complete (.finit p) (s.started (.finit p) none).init with overrun := false } :=
    startEsc_of_starts (fun x => .next { s.complete (.finit p) x.init with overrun := false }) (starts_finit p hem hts)
  exact ⟨_, run, rfl, statusWord_init_toBits, fun k => tag_reset k rfl, State.started_regs _ _ _, rfl, rfl, rfl, rfl⟩

end Sys2Proof.Machine
end

section
/-! PROOFS. The host's side of every instruction: its frame, the stores, and the interrupts 9, 13 and 16 (spec/20_memory.md
R81 to R93, spec/60_exceptions.md R410 to R414), read off `exec_next`. -/

namespace Sys2Proof.Machine

/-! What the two interrupted ends leave (R413, R423). -/

@[simp] theorem State.overrunBy_cw (s : State) (i : Instr) (o : Operand) : (s.overrunBy i o).npx.cw = s.npx.cw := rfl
@[simp] theorem State.overrunBy_bus (s : State) (i : Instr) (o : Operand) : (s.overrunBy i o).bus = s.bus := rfl
@[simp] theorem State.overrunBy_overrun (s : State) (i : Instr) (o : Operand) : (s.overrunBy i o).overrun = true := rfl

theorem State.overrunBy_interrupt (s : State) (i : Instr) (o : Operand) :
    ∃ q, (s.overrunBy i o).cpu.interrupt = some q ∧ q.vector = .v9 := ⟨_, rfl, rfl⟩

/-- Interrupt 9 writes bytes of the operand alone, and only a storing instruction's (R413). -/
theorem State.overrunBy_read (s : State) (i : Instr) (o : Operand) {a : Nat} (h : stores i = true → a ∉ o.addrs) :
    (s.overrunBy i o).mem.read a = s.mem.read a := by
  refine overrun_mem_other _ _ _ _ ?_
  split
  case isTrue hs => exact fun ha => h hs (s.cpu.accessibleAddrs_subset o true a ha)
  case isFalse => exact List.not_mem_nil

theorem State.overrunBy_mem_of_not_stores {i : Instr} (h : stores i = false) (s : State) (o : Operand) :
    (s.overrunBy i o).mem = s.mem := by
  rw [State.overrunBy, h]
  rfl

theorem State.overrunBy_mem_wf {s : State} (h : s.mem.wf = true) (i : Instr) (o : Operand) :
    (s.overrunBy i o).mem.wf = true := by
  refine overrun_mem_wf _ _ _ (fun a ha => ?_) h
  split at ha
  · exact o.addrs_lt a (s.cpu.accessibleAddrs_subset o true a ha)
  · exact absurd ha List.not_mem_nil

/-! Memory after an instruction that ran (R81). -/

theorem State.memAfter_wf {s : State} (h : s.mem.wf = true) (i : Instr) : (s.memAfter i).wf = true := by
  unfold State.memAfter
  split
  case h_1 v o _ _ => exact Memory.writeAll_wf _ _ _ o.addrs_lt h
  case h_2 => exact h

theorem State.memAfter_read {s : State} {i : Instr} {a : Nat}
    (h : ∀ o, stores i = true → operandOf s i = some o → a ∉ o.addrs) : (s.memAfter i).read a = s.mem.read a := by
  cases hs : stores i with
  | false => rw [State.memAfter_of_not_stores hs]
  | true =>
    obtain ⟨o, ho⟩ := operandOf_of_stores hs s
    cases hv : s.stored i with
    | none => rw [State.memAfter_of_none hv]
    | some v => rw [State.memAfter_of_some hv ho, Memory.read_writeAll_other _ _ _ _ (h o hs ho)]

/-! Frames of the host and of memory. -/

/-- FSTSW AX leaves the upper half of EAX (R322). -/
theorem eaxAfter_upper (i : Instr) (eax : DWord) (w : StatusWord) :
    (eaxAfter i eax w).extractLsb' 16 16 = eax.extractLsb' 16 16 := by
  cases i with
  | fstswAx p =>
    show (eax.extractLsb' 16 16 ++ w.toBits : BitVec 32).extractLsb' 16 16 = _
    exact BitVec.extractLsb'_append_eq_left
  | _ => rfl

/-- Settles O10: by `exec_next`, each of the three ends changes of the host what the statement names. -/
theorem hostFrame : Obligations.HostFrame := by
  unfold Obligations.HostFrame
  intro i s t h
  rcases exec_next h with ⟨v, -, rfl⟩ | ⟨o, -, rfl⟩ | ⟨-, rfl⟩
  · exact ⟨rfl, rfl, fun _ => rfl, rfl⟩
  · exact ⟨rfl, rfl, fun _ => rfl, rfl⟩
  · rw [State.ran_cpu]
    exact ⟨rfl, rfl, fun hi => eaxAfter_eq hi _ _, eaxAfter_upper _ _ _⟩

/-- Settles O11: an interrupt that was due writes nothing, interrupt 9 and the store write at the operand's addresses. -/
theorem memoryFrame : Obligations.MemoryFrame := by
  unfold Obligations.MemoryFrame
  intro i s t h a ha
  rcases exec_next h with ⟨v, -, rfl⟩ | ⟨o, hov, rfl⟩ | ⟨-, rfl⟩
  · rfl
  · exact State.overrunBy_read s i o fun hs => ha o hs hov.2.1
  · exact State.memAfter_read ha

/-- Settles O20: `exec_of_operable`; the length of the encoding is what EIP advances by. -/
theorem everyOperableInstructionCompletes : Obligations.EveryOperableInstructionCompletes := by
  unfold Obligations.EveryOperableInstructionCompletes
  intro i s h
  refine ⟨s.ran i, exec_of_operable h, ?_, ?_⟩ <;> rw [State.ran_cpu]
  rw [length_encode]

/-! Interrupt 16 (R411). -/

/-- ES raises interrupt 16 in every instruction that is not exempt, past interrupt 7. -/
theorem due_sixteen {i : Instr} {s : State} (hem : s.cpu.em = false ∨ ∃ p, i = .wait p) (hts : s.cpu.ts = false)
    (hes : s.npx.sw.es = true) (hx : exemptFrom16 i = false) : due i s = some .v16 := by
  cases hi : isEsc i with
  | true =>
    have hem : s.cpu.em = false := hem.resolve_right fun ⟨p, h⟩ => (isEsc_iff i).1 hi p h
    rw [due_of_isEsc hi]
    simp [hostCheck, hem, hts, hes, hx]
  | false =>
    cases i with
    | wait p => simp [due, hts, hes]
    | _ => cases hi

/-- An exempt instruction is not due to raise interrupt 16. -/
theorem due_ne_sixteen {i : Instr} {s : State} (hx : exemptFrom16 i = true) : due i s ≠ some .v16 := by
  have hi : isEsc i = true := by
    cases i with
    | wait p => cases hx
    | _ => rfl
  rw [due_of_isEsc hi]
  unfold hostCheck
  rw [hx, Bool.not_true, Bool.and_false, if_neg Bool.false_ne_true]
  split
  · exact nofun
  · split
    · exact nofun
    · split <;> exact nofun

/-- Settles O17: the exempt seven by the definition; `exec_of_due` at `due_sixteen`; and an exempt instruction raises only
what is due, or interrupt 9. -/
theorem interruptSixteen : Obligations.InterruptSixteen := by
  unfold Obligations.InterruptSixteen
  refine ⟨fun i => ?exempt, fun i s hem hts hes hx => exec_of_due (due_sixteen hem hts hes hx),
    fun i s t q hx hint h hq => ?never⟩
  case exempt => cases i <;> simp [exemptFrom16]
  case never =>
    rcases exec_next h with ⟨v, hv, rfl⟩ | ⟨o, -, rfl⟩ | ⟨-, rfl⟩
    · cases hq
      rintro rfl
      exact due_ne_sixteen hx hv
    · obtain ⟨q', hq', h9⟩ := State.overrunBy_interrupt s i o
      rw [hq'] at hq
      cases hq
      simp [h9]
    · rw [State.ran_cpu] at hq
      cases hint.symm.trans hq

/-! Interrupt 13 and the host's own faults (R91, R93, R412). -/

/-- Past interrupts 7 and 16, what is due is interrupt 13 or nothing. -/
theorem hostCheck_of_clear {i : Instr} {s : State} {o : Operand} (hem : s.cpu.em = false) (hts : s.cpu.ts = false)
    (hes : s.npx.sw.es = false ∨ exemptFrom16 i = true) :
    hostCheck i (some o) s = if o.limitFault then some .v13 else none := by
  have h16 : (s.npx.sw.es && !exemptFrom16 i) = false := by rcases hes with h | h <;> simp [h]
  simp [hostCheck, hem, hts, h16]

theorem isEsc_of_operandOf {i : Instr} {s : State} {o : Operand} (ho : operandOf s i = some o) : isEsc i = true := by
  cases i with
  | wait p => cases ho
  | _ => rfl

/-- The segment itself fails the access: the host's own fault (R93). -/
theorem exec_of_segmentFault {i : Instr} {s : State} {o : Operand} (hd : due i s = none) (ho : operandOf s i = some o)
    (hf : o.segmentFault = true) : exec i s = .fault .hostAccess := by
  have hi := isEsc_of_operandOf ho
  rw [due_of_isEsc hi, ho] at hd
  rw [exec_eq_runForm s hi, runForm, ho, startEsc, hd]
  exact if_pos hf

/-- A byte in a device region comes before every other way a transfer can end (R86, log 5). -/
theorem transfer_of_inDevice {c : Cpu} {o : Operand} {k : Nat} (hk : k < o.bytes) (hd : c.inDevice (o.linear k) = true)
    (write : Bool) : c.transfer o write = .device := by
  have : ((List.range o.bytes).any fun k => c.inDevice (o.linear k)) = true :=
    List.any_eq_true.2 ⟨k, List.mem_range.2 hk, hd⟩
  rw [Cpu.transfer, this, if_pos rfl]

/-- Settles O18: the three checks of the operand's segment decide between interrupt 13 and the host's own fault; past them
the transfer of a device's byte is refused. -/
theorem interruptThirteen : Obligations.InterruptThirteen := by
  unfold Obligations.InterruptThirteen
  intro i s o hem hts hes ho
  have hd : due i s = if o.limitFault then some .v13 else none := by
    rw [due_of_isEsc (isEsc_of_operandOf ho), ho, hostCheck_of_clear hem hts hes]
  refine ⟨fun hpres hout => ?limit, fun hpres => ?absent, fun hpres hin hs ⟨k, hk, hdev⟩ => ?device⟩
  case limit =>
    have hin : o.firstInLimit = false := by
      rw [Bool.eq_false_iff, Ne, Operand.firstInLimit_iff]
      rintro ⟨hstart, hall⟩
      rcases hout with h | ⟨k, hk, h⟩
      · simp [h] at hstart
      · simp [hall k hk] at h
    refine ⟨fun hst => exec_of_due (hd.trans ?_), fun hst => exec_of_segmentFault (hd.trans ?_) ho ?_⟩
    · simp [Operand.limitFault, hpres, hst, hin]
    · simp [Operand.limitFault, hst]
    · simp [Operand.segmentFault, hst, hin]
  case absent =>
    refine exec_of_segmentFault (hd.trans ?_) ho ?_
    · simp [Operand.limitFault, hpres]
    · simp [Operand.segmentFault, hpres]
  case device =>
    have hp : Passes i s := by
      refine passes_of_starts ((starts_iff _ _ _).2 ⟨hem, hts, hes, fun a ha => ?_⟩)
      rw [ho] at ha
      cases ha
      exact ⟨hpres, hin⟩
    rw [exec_of_passes hp, ho]
    simp only [hs, Bool.false_eq_true, if_false, readOperand, transfer_of_inDevice hk hdev]

/-! Interrupt 9 (R92, R413). -/

/-- A transfer ends in a segment overrun exactly in the two ways of R92. -/
theorem transfer_eq_overrun_iff (c : Cpu) (o : Operand) (write : Bool) :
    c.transfer o write = .overrun ↔ SpansInaccessible c o write := by
  unfold Cpu.transfer SpansInaccessible
  constructor
  · intro h
    split at h
    · cases h
    rename_i hdev
    split at h
    · cases h
    rename_i hw
    split at h
    · cases h
    rename_i hfirst
    have hdev' : ∀ k, k < o.bytes → c.inDevice (o.linear k) = false := by simpa using hdev
    have hw' : write = true → o.seg.writable = true := by simpa using hw
    have hfirst' : ∀ k, k < o.firstPiece → c.accessible write (o.linear k) = true := by simpa using hfirst
    refine ⟨hdev', hw', hfirst', ?_⟩
    split at h
    · rename_i hlim
      exact .inl (by simpa using hlim)
    · split at h
      · cases h
      · rename_i hall
        split at h
        · rename_i hlast
          exact .inr ⟨hlast, by simpa using hall⟩
        · cases h
  · rintro ⟨hdev, hw, hfirst, hspan⟩
    have hdev' : ((List.range o.bytes).any fun k => c.inDevice (o.linear k)) = false := by simpa using hdev
    have hw' : (write && !o.seg.writable) = false := by cases write <;> simp_all
    have hfirst' : ((List.range o.firstPiece).all fun k => c.accessible write (o.linear k)) = true := by simpa using hfirst
    rw [hdev', hw', hfirst', if_neg Bool.false_ne_true, if_neg Bool.false_ne_true, if_neg (by decide)]
    by_cases hlim : ((List.range o.bytes).all fun k => o.seg.contains (o.offset k)) = true
    · rw [hlim, if_neg (by decide)]
      rcases hspan with ⟨k, hk, h⟩ | ⟨hlast, k, hk, h⟩
      · have := (List.all_eq_true.1 hlim) k (List.mem_range.2 hk)
        simp [h] at this
      · have hall : ((List.range o.bytes).all fun k => c.accessible write (o.linear k)) = false :=
          List.all_eq_false.2 ⟨k, List.mem_range.2 hk, by simp [h]⟩
        rw [hall, if_neg Bool.false_ne_true, if_pos hlast]
    · rw [Bool.not_eq_true] at hlim
      rw [hlim, if_pos (by decide)]

/-- Interrupt 9 is never due before an instruction. -/
theorem due_ne_nine (i : Instr) (s : State) : due i s ≠ some .v9 := by
  have check (o : Option Operand) : hostCheck i o s ≠ some .v9 := by
    unfold hostCheck
    repeat' split
    all_goals exact nofun
  cases hi : isEsc i with
  | true => exact due_of_isEsc hi s ▸ check _
  | false =>
    cases i with
    | wait p => unfold due; repeat' split
                all_goals exact nofun
    | _ => cases hi

theorem passes_of_reaches {s : State} {i : Instr} {o : Operand} (h : Reaches s i o) : Passes i s := by
  obtain ⟨hem, hts, hes, ho, hpres, hin⟩ := h
  refine passes_of_starts ((starts_iff _ _ _).2 ⟨hem, hts, hes, fun a ha => ?_⟩)
  cases ho.symm.trans ha
  exact ⟨hpres, hin⟩

theorem reaches_of_passes {s : State} {i : Instr} {o : Operand} (h : Passes i s) (ho : operandOf s i = some o) :
    Reaches s i o := by
  obtain ⟨hem, hts, hes, hseg⟩ := (starts_iff _ _ _).1 (h.starts (isEsc_of_operandOf ho))
  exact ⟨hem, hts, hes, ho, hseg o ho⟩

/-- With the invalid operation, overflow and underflow masked, a conversion always ends with a number to store. -/
theorem converted_isSome {cw : ControlWord} (him : cw.im = true) (hom : cw.om = true) (hum : cw.um = true) (i : Instr)
    (v : Ext) : (converted i cw v).val.isSome = true := by
  have real (f : RealFormat) : (storeReal cw f v).val.isSome = true := by
    unfold storeReal
    split
    all_goals simp only [Result.invalid, Result.ok, him, hom, hum, if_true, Option.isSome_some]
    all_goals (repeat' split) <;> rfl
  have int (n : Nat) : (storeInt cw n v).val.isSome = true := by
    unfold storeInt
    split
    all_goals simp only [Result.invalid, Result.ok, him, if_true, Option.isSome_some]
    all_goals (repeat' split) <;> rfl
  have bcd : (storeBcd cw v).val.isSome = true := by
    unfold storeBcd
    split
    all_goals simp only [Result.invalid, Result.ok, him, if_true, Option.isSome_some]
    all_goals (repeat' split) <;> rfl
  unfold converted
  split
  · exact real _
  · exact int _
  · split
    · exact bcd
    · rfl

theorem written_of_storesAlways {i : Instr} (h : storesAlways i = true) (n : Nat) (fmt : ImageFormat) (x : Npx) :
    (written i n fmt x).isSome = true := by
  cases i <;> cases h <;> rfl

/-- Every other store is of ST(0). -/
theorem storeForm_of_stores {i : Instr} (hs : stores i = true) (ha : storesAlways i = false) :
    ∃ q, storeForm i = some q := by
  cases i <;> cases hs <;> cases ha <;> exact ⟨_, rfl⟩

/-- A store that must write has something to write (R164, R173, R323 to R329). -/
theorem stored_isSome {s : State} {i : Instr} (hs : stores i = true)
    (h : storesAlways i = true ∨ (s.npx.cw.im = true ∧ s.npx.cw.om = true ∧ s.npx.cw.um = true)) :
    (s.stored i).isSome = true := by
  cases ha : storesAlways i with
  | true => exact written_of_storesAlways ha _ _ _
  | false =>
    obtain ⟨q, hq⟩ := storeForm_of_stores hs ha
    obtain ⟨him, hom, hum⟩ := h.resolve_left (ne_true_of_eq_false ha)
    simp only [State.stored, written, hq, storeResult, State.entry_cw]
    split
    · simp [Result.underflow, him]
    · exact converted_isSome him hom hum _ _

/-- Settles O19: `Overruns` is what the statement's hypotheses say, by `transfer_eq_overrun_iff`; forwards by
`exec_of_overruns`, backwards by `exec_next`. -/
theorem interruptNine : Obligations.InterruptNine := by
  unfold Obligations.InterruptNine
  refine ⟨fun o k => ?offset, fun i s o hr hs hspan => ?loads, fun i s o hr hs hspan hv => ?storing,
    fun i s t q h hint hq h9 => ?only⟩
  case offset =>
    cases hb : o.seg.big with
    | false => exact o.offset_small k hb
    | true => exact o.offset_big k hb
  case loads =>
    have hov : Overruns i s o := by
      refine ⟨passes_of_reaches hr, hr.2.2.2.1, ?_, fun h => ?_⟩
      · rw [hs, transfer_eq_overrun_iff]; exact hspan
      · rw [hs] at h; cases h
    obtain ⟨q, hq, hq9⟩ := State.overrunBy_interrupt s i o
    exact ⟨_, q, exec_of_overruns hov, hq, hq9, rfl, State.overrunBy_mem_of_not_stores hs s o⟩
  case storing =>
    have hov : Overruns i s o := by
      refine ⟨passes_of_reaches hr, hr.2.2.2.1, ?_, fun _ => stored_isSome hs hv⟩
      rw [hs, transfer_eq_overrun_iff]
      exact hspan
    obtain ⟨q, hq, hq9⟩ := State.overrunBy_interrupt s i o
    exact ⟨_, q, exec_of_overruns hov, hq, hq9, rfl, fun a ha => State.overrunBy_read s i o fun _ => ha⟩
  case only =>
    rcases exec_next h with ⟨v, hv, rfl⟩ | ⟨o, ⟨hp, ho, ht, -⟩, rfl⟩ | ⟨-, rfl⟩
    · cases hq
      exact absurd (hv.trans (congrArg some h9)) (due_ne_nine i s)
    · exact ⟨o, reaches_of_passes hp ho, (transfer_eq_overrun_iff _ _ _).1 ht, rfl,
        fun a ha => State.overrunBy_read s i o fun _ => ha⟩
    · rw [State.ran_cpu] at hq
      cases hint.symm.trans hq

end Sys2Proof.Machine
end

section
/-! PROOFS. What every instruction but the control ones does to the NPX is a sequence of moves: flags signalled, the
condition code and TOP set, a register loaded with its tag, emptied, exchanged or given a sign. What all moves keep, every such
instruction keeps: CW, the pointers, and the laws of ES, B and the tags (R28, R152). -/

namespace Sys2Proof.Machine

/-! The moves. -/

/-- y is x after a sequence of moves. -/
inductive Npx.Moves (x : Npx) : Npx → Prop where
  | refl : Moves x x
  | signal {y : Npx} (h : Moves x y) (g : Signals) (sf : Bool) : Moves x (y.withSw (y.sw.signal y.cw g sf))
  | withC1 {y : Npx} (h : Moves x y) (b : Bool) : Moves x (y.withSw (y.sw.withC1 b))
  | withCc {y : Npx} (h : Moves x y) (c3 c2 c0 : Bool) : Moves x (y.withSw (y.sw.withCc c3 c2 c0))
  | withTop {y : Npx} (h : Moves x y) (t : Idx) : Moves x (y.withTop t)
  | setReg {y : Npx} (h : Moves x y) (k : Idx) (v : Ext) : Moves x (y.setReg k v)
  | setEmpty {y : Npx} (h : Moves x y) (k : Idx) : Moves x (y.setTag k .empty)
  | exchange {y : Npx} (h : Moves x y) (j k : Idx) : Moves x (y.exchange j k)
  | setSign {y : Npx} (h : Moves x y) (k : Idx) (b : Bool) :
    Moves x (y.setRegRaw k (BitVec.ofBool b ++ (y.reg k).extractLsb' 0 79))

namespace Npx.Moves

variable {x y : Npx}

theorem note {α : Type} (h : Moves x y) (n : Nat) (r : Result α) : Moves x (y.note n r) := by
  unfold Npx.note
  cases r.c1 with
  | keep => exact h.signal _ _
  | set b => exact (h.signal r.signals r.sf).withC1 b
  | draw => exact (h.signal r.signals r.sf).withC1 _

theorem undefCc (h : Moves x y) (n : Nat) : Moves x (y.undefCc n) := h.withCc _ _ _
theorem undefAll (h : Moves x y) (n : Nat) : Moves x (y.undefAll n) := (h.undefCc n).withC1 (drawnC1 n)
theorem reduced (h : Moves x y) (n : Nat) (c2 : Bool) : Moves x (y.reduced n c2) := h.withCc _ _ _
theorem notReduced (h : Moves x y) (n : Nat) : Moves x (y.notReduced n) := (h.withC1 _).reduced n true
theorem push (h : Moves x y) (v : Ext) : Moves x (y.push v) := (h.withTop _).setReg _ v
theorem pop (h : Moves x y) : Moves x y.pop := (h.setEmpty _).withTop _

theorem pops (h : Moves x y) (n : Nat) : Moves x (Npx.pops n y) := by
  induction n generalizing y with
  | zero => exact h
  | succ n ih => exact ih h.pop

theorem deliverTo (h : Moves x y) (n : Nat) (k : Idx) (pops : Nat) (r : Result Ext) :
    Moves x (y.deliverTo n k pops r) := by
  unfold Npx.deliverTo
  split
  · exact h.note n r
  · exact ((h.note n r).setReg k _).pops pops

theorem deliverPush (h : Moves x y) (n : Nat) (r : Result Ext) : Moves x (y.deliverPush n r) := by
  unfold Npx.deliverPush
  split
  · exact h.note n r
  · exact (h.note n r).push _

theorem deliverPair (h : Moves x y) (n : Nat) (r : Result (Ext × Ext)) : Moves x (y.deliverPair n r) := by
  unfold Npx.deliverPair
  split
  · exact h.note n r
  · exact ((h.note n r).setReg _ _).push _

theorem compared (h : Moves x y) (n pops : Nat) (r : Result CompareCode) : Moves x (y.compared n pops r) := by
  unfold Npx.compared
  split
  · exact (h.note n r).undefCc n
  · exact ((h.note n r).withCc _ _ _).pops pops

theorem stored (h : Moves x y) (n pops : Nat) (r : Result Nat) : Moves x (y.stored n pops r) := by
  unfold Npx.stored
  refine Npx.Moves.undefCc ?_ n
  split
  · exact h.note n r
  · exact (h.note n r).pops pops

theorem replaceTop (h : Moves x y) (n : Nat) (f : Ext → Result Ext) : Moves x (y.replaceTop n f) :=
  (h.deliverTo n _ 0 _).undefCc n

theorem trig (h : Moves x y) (n : Nat) (f : Ext → Result Ext) : Moves x (y.trig n f) := by
  unfold Npx.trig
  split
  · exact h.notReduced n
  · exact (h.deliverTo n _ 0 _).reduced n false

theorem trigPair (h : Moves x y) (n : Nat) (f : Ext → Result (Ext × Ext)) : Moves x (y.trigPair n f) := by
  unfold Npx.trigPair
  split
  · exact h.notReduced n
  · exact (h.deliverPair n _).reduced n false

theorem prem (h : Moves x y) (n : Nat) (nearest : Bool) : Moves x (y.prem n nearest) := by
  unfold Npx.prem
  dsimp only
  split
  · exact (h.deliverTo n _ 0 _).undefCc n
  · exact (h.deliverTo n _ 0 _).withCc _ _ _

theorem setSignOfTop (h : Moves x y) (n : Nat) (b : Bool) : Moves x (y.setSign n b) := by
  unfold Npx.setSign
  refine Npx.Moves.undefCc ?_ n
  split
  · exact h.deliverTo n _ 0 _
  · exact (h.note n _).setSign _ b

theorem fillEmpty (h : Moves x y) (j : Idx) : Moves x (y.fillEmpty j) := by
  unfold Npx.fillEmpty
  split
  · exact h.setReg _ _
  · exact h

theorem fxch (h : Moves x y) (n : Nat) (j : Idx) : Moves x (y.fxch n j) := by
  unfold Npx.fxch
  refine Npx.Moves.undefCc ?_ n
  split
  · split
    · exact (((h.note n _).fillEmpty 0).fillEmpty j).exchange _ _
    · exact h.note n _
  · exact (h.note n _).exchange _ _

theorem fxam (h : Moves x y) : Moves x y.fxam := by
  unfold Npx.fxam
  extract_lets c
  exact (h.withCc c.c3 c.c2 c.c0).withC1 (signOf (y.st 0))

theorem moveTop (h : Moves x y) (n : Nat) (d : Idx) : Moves x (y.moveTop n d) :=
  ((h.withTop (y.sw.top + d)).withC1 false).undefCc n

end Npx.Moves

/-- Every instruction that neither writes CW nor clears the flags moves. -/
theorem effect_moves {i : Instr} (hl : loadsControl i = false) (hc : ∀ p, i ≠ .fclex p) (n : Nat) (fmt : ImageFormat)
    (v : Nat) (x : Npx) : x.Moves (effect i n fmt v x) := by
  have h : x.Moves x := .refl
  unfold effect
  split
  · exact (h.deliverPush n _).undefCc n
  split
  · exact (h.deliverTo n _ _ _).undefCc n
  split
  · exact h.compared n _ _
  split
  · exact h.stored n _ _
  cases i with
  | fsqrt p | frndint p | f2xm1 p => exact h.replaceTop n _
  | fsin p | fcos p => exact h.trig n _
  | fscale p | fpatan p | fyl2x p | fyl2xp1 p => exact (h.deliverTo n _ _ _).undefCc n
  | fprem p | fprem1 p => exact h.prem n _
  | fxtract p => exact (h.deliverPair n _).undefCc n
  | fptan p | fsincos p => exact h.trigPair n _
  | fabs p | fchs p => exact h.setSignOfTop n _
  | fstSti p j | fstpSti p j => exact (h.deliverTo n _ _ _).undefCc n
  | fxch p j => exact h.fxch n j
  | fxam p => exact h.fxam
  | fincstp p | fdecstp p => exact h.moveTop n _
  | ffree p j => exact (h.setEmpty _).undefAll n
  | fnop p | fstswM16 p m | fstswAx p | fstcw p m => exact h.undefAll n
  | fclex p => exact absurd rfl (hc p)
  | finit p | fldcw p m | fstenv p m | fldenv p m | fsave p m | frstor p m => cases hl
  | _ => exact h

/-! What every move keeps. -/

namespace Npx.Moves

variable {x y : Npx}

/-- The control word and the pointers. -/
theorem control (h : Moves x y) : y.cw = x.cw ∧ y.fip = x.fip ∧ y.fdp = x.fdp ∧ y.fop = x.fop := by
  induction h with
  | refl => exact ⟨rfl, rfl, rfl, rfl⟩
  | _ => assumption

/-- ES and B the OR of the unmasked flags: signalling sets both where it sets an unmasked flag (R28, R175). -/
theorem esLaw (h : Moves x y) (hx : x.esLaw) : y.esLaw := by
  induction h with
  | refl => exact hx
  | signal h g sf ih =>
    obtain ⟨hes, hb⟩ := ih
    exact ⟨by simp [unmaskedFlag_signal, hes], by simp [hb]⟩
  | _ => assumption

end Npx.Moves

/-- The sign does not matter to a tag (R142, R152). -/
theorem tagOf_sign (b : Bool) (v : Ext) : tagOf (BitVec.ofBool b ++ v.extractLsb' 0 79 : Ext) = tagOf v := by
  unfold tagOf
  rw [classOf_sign]

theorem Npx.exchange_reg (x : Npx) (j k m : Idx) :
    (x.exchange j k).reg m = if k = m then x.reg j else if j = m then x.reg k else x.reg m := by
  simp [Npx.exchange]

theorem Npx.exchange_tag (x : Npx) (j k m : Idx) :
    (x.exchange j k).tag m = if k = m then x.tag j else if j = m then x.tag k else x.tag m := by
  simp [Npx.exchange]

/-- Every tag that is not empty the tag of its register: a register is loaded with its tag, and exchanged with it. -/
theorem Npx.Moves.tagLaw {x y : Npx} (h : x.Moves y) (hx : x.tagLaw) : y.tagLaw := by
  induction h with
  | refl => exact hx
  | setReg h k v ih =>
    intro m
    rw [Npx.setReg_tag, Npx.setReg_reg]
    split
    · exact fun _ => rfl
    · exact ih m
  | setEmpty h k ih =>
    intro m
    rw [Npx.setTag_tag, Npx.setTag_reg]
    split
    · exact fun he => absurd rfl he
    · exact ih m
  | exchange h j k ih =>
    intro m
    rw [Npx.exchange_tag, Npx.exchange_reg]
    split
    · exact ih j
    · split
      · exact ih k
      · exact ih m
  | setSign h k b ih =>
    intro m
    rw [Npx.setRegRaw_tag, Npx.setRegRaw_reg]
    split
    case isTrue e => exact e ▸ fun he => (ih k he).trans (tagOf_sign b _).symm
    case isFalse => exact ih m
  | _ => assumption

/-! The control instructions. -/

theorem tagLaw_of_reset {x : Npx} (h : x.tags = Npx.reset.tags) : x.tagLaw := fun k hk => absurd (tag_reset k h) hk

theorem init_laws (x : Npx) : x.init.esLaw ∧ x.init.tagLaw := ⟨⟨rfl, rfl⟩, tagLaw_of_reset rfl⟩

/-- Recomputing ES and B from any flags makes them lawful (R331). -/
theorem esLaw_of_refresh {x : Npx} {w : StatusWord} (h : x.sw = w.refresh x.cw) : x.esLaw := by
  rw [Npx.esLaw, h]
  exact ⟨rfl, rfl⟩

theorem loadTag_law (t : BitVec 2) (v : Ext) (h : loadTag t v ≠ .empty) : loadTag t v = tagOf v := by
  unfold loadTag at h ⊢
  split
  case isTrue e => exact absurd (if_pos e) h
  case isFalse => rfl

theorem Npx.envLoad_tag (x : Npx) (fmt : ImageFormat) (image n : Nat) (k : Idx) :
    (x.envLoad fmt image n).tag k = loadTag (imageBits image (fieldPos fmt 2 + 2 * k.toNat) 2) (x.reg k) :=
  vec8_get _ k

@[simp] theorem Npx.envLoad_regs (x : Npx) (fmt : ImageFormat) (image n : Nat) : (x.envLoad fmt image n).regs = x.regs := rfl

theorem envLoad_laws (x : Npx) (fmt : ImageFormat) (image n : Nat) :
    (x.envLoad fmt image n).esLaw ∧ (x.envLoad fmt image n).tagLaw := by
  refine ⟨esLaw_of_refresh rfl, fun k hk => ?_⟩
  rw [Npx.envLoad_tag] at hk ⊢
  exact loadTag_law _ _ hk

/-- Every instruction keeps the laws of ES, B and the tags; those that load or reset the NPX establish them. -/
theorem effect_laws (i : Instr) (n : Nat) (fmt : ImageFormat) (v : Nat) {x : Npx} (h : x.esLaw ∧ x.tagLaw) :
    (effect i n fmt v x).esLaw ∧ (effect i n fmt v x).tagLaw := by
  cases hl : loadsControl i with
  | true =>
    cases i with
    | finit p => exact init_laws x
    | fsave p m => exact init_laws x
    | fldenv p m => exact envLoad_laws x _ _ _
    | frstor p m => exact envLoad_laws _ _ _ _
    | fldcw p m => exact ⟨esLaw_of_refresh (w := x.sw.undefAll n) rfl, h.2⟩
    | fstenv p m =>
      refine ⟨⟨?_, rfl⟩, h.2⟩
      show false = unmaskedFlag x.maskAll.cw x.sw
      simp [unmaskedFlag, Npx.maskAll]
    | _ => cases hl
  | false =>
    by_cases hc : ∃ p, i = .fclex p
    · obtain ⟨p, rfl⟩ := hc
      exact ⟨⟨rfl, rfl⟩, h.2⟩
    · have m := effect_moves hl (not_exists.1 hc) n fmt v x
      exact ⟨m.esLaw h.1, m.tagLaw h.2⟩

/-! Every step keeps the invariant. -/

/-- The laws speak of neither pointers nor the host. -/
theorem entry_laws {s : State} (i : Instr) (h : s.npx.esLaw ∧ s.npx.tagLaw) : (s.entry i).esLaw ∧ (s.entry i).tagLaw := by
  simpa [Npx.esLaw, Npx.tagLaw] using h

theorem overrunAfter_eq_or (i : Instr) (b : Bool) : overrunAfter i b = b ∨ ∃ p, i = .finit p := by
  cases i with
  | finit p => exact .inr ⟨p, rfl⟩
  | _ => exact .inl rfl

/-- Every instruction keeps the invariant. -/
theorem exec_keeps_inv {i : Instr} {s t : State} (hs : s.Inv) (h : exec i s = .next t) : t.Inv := by
  obtain ⟨hmem, hlaws⟩ := hs
  rcases exec_next h with ⟨v, -, rfl⟩ | ⟨o, -, rfl⟩ | ⟨-, rfl⟩
  · exact ⟨hmem, hlaws⟩
  · exact ⟨State.overrunBy_mem_wf hmem i o, .inl rfl⟩
  · refine ⟨State.memAfter_wf hmem i, ?_⟩
    rcases overrunAfter_eq_or i s.overrun with ho | ⟨p, rfl⟩
    · rw [State.ran_overrun, ho]
      exact hlaws.imp_right fun hl => effect_laws i _ _ _ (entry_laws i hl)
    · exact .inr (init_laws _)

/-- Settles O8: entering a handler touches neither the NPX nor memory, and an instruction keeps the invariant by
`exec_keeps_inv`. -/
theorem everyStepKeepsInvariant : Obligations.EveryStepKeepsInvariant := by
  unfold Obligations.EveryStepKeepsInvariant
  intro s t hs h
  unfold step at h
  split at h
  · unfold State.enterHandler at h
    split at h
    · cases h
    · cases h
      exact hs
  · split at h
    · exact exec_keeps_inv hs h
    · cases h
      exact hs
    · cases h

/-! The control word and the pointers. -/

/-- Settles O14: an interrupted end keeps CW, and every instruction but the six moves or, FCLEX, writes SW alone. -/
theorem controlWordFrame : Obligations.ControlWordFrame := by
  unfold Obligations.ControlWordFrame
  intro i s t h hl
  rcases exec_next h with ⟨v, -, rfl⟩ | ⟨o, -, rfl⟩ | ⟨-, rfl⟩
  · rfl
  · rfl
  · refine Eq.trans ?_ (State.entry_cw s i)
    by_cases hc : ∃ p, i = .fclex p
    · obtain ⟨p, rfl⟩ := hc
      rfl
    · exact (effect_moves hl (not_exists.1 hc) _ _ _ _).control.1

/-- Every instruction but those that clear or load the pointers leaves them as they were when it started. -/
theorem effect_pointers {i : Instr} (h : replacesPointers i = false) (n : Nat) (fmt : ImageFormat) (v : Nat) (x : Npx) :
    (effect i n fmt v x).fip = x.fip ∧ (effect i n fmt v x).fdp = x.fdp ∧ (effect i n fmt v x).fop = x.fop := by
  cases hl : loadsControl i with
  | true =>
    cases i with
    | fldcw p m | fstenv p m => exact ⟨rfl, rfl, rfl⟩
    | finit p | fsave p m | fldenv p m | frstor p m => cases h
    | _ => cases hl
  | false =>
    by_cases hc : ∃ p, i = .fclex p
    · obtain ⟨p, rfl⟩ := hc
      exact ⟨rfl, rfl, rfl⟩
    · exact (effect_moves hl (not_exists.1 hc) n fmt v x).control.2

/-- Instructions that leave the pointers leave them from the start. -/
theorem entry_of_leavesPointers {i : Instr} (h : leavesPointers i = true) (s : State) : s.entry i = s.npx := by
  cases i <;> cases h <;> rfl

/-- The others record themselves when they start. -/
theorem entry_of_records {i : Instr} (hl : leavesPointers i = false) (hr : replacesPointers i = false) (s : State) :
    s.entry i = { s.npx with fip := s.codePointer, fop := i.fop, fdp := s.dataPointer (operandOf s i) } := by
  have h : isEsc i = true ∧ keepsPointers i = false := by cases i <;> cases hl <;> cases hr <;> exact ⟨rfl, rfl⟩
  rw [State.entry_of_isEsc h.1, State.started, if_neg (ne_true_of_eq_false h.2)]

/-- The linear form outside protected mode (R44, log 34). -/
theorem linearForm_toNat {m : Mode} (h : m ≠ .protectedMode) (sel : Word) (off free : DWord) :
    (linearForm m sel off free).toNat = (sel.toNat * 16 + off.toNat) % 2 ^ 32 := by
  have e : linearForm m sel off free = sel.setWidth 32 * 16 + off := by
    cases m with
    | protectedMode => exact absurd rfl h
    | realMode | virtual86 => rfl
  rw [e]
  bv_omega

/-- FOP is the low bits of the opcode bytes (R47, R119). -/
theorem encode_eq_fop {i : Instr} (h : isEsc i = true) :
    ∃ (b0 b1 : Byte) (rest : List Byte), encode i = i.prefixes.map encodePrefix ++ b0 :: b1 :: rest ∧
      i.fop = (b0.extractLsb' 0 3 ++ b1 : BitVec 11) := by
  unfold encode Layout.encode Instr.fop Instr.prefixes
  match hl : i.layout with
  | .mem p row op m => exact ⟨escByte row, _, _, rfl, by rw [(extract_escByte row).2]⟩
  | .reg p row op low => exact ⟨escByte row, _, [], rfl, by rw [(extract_escByte row).2]⟩
  | .wait p => exact absurd (eq_wait_of_layout hl) ((isEsc_iff i).1 h p)

/-- Settles O15: the pointers an instruction starts with (`State.entry`) are those it leaves (`effect_pointers`). -/
theorem pointersRecordTheInstruction : Obligations.PointersRecordTheInstruction := by
  unfold Obligations.PointersRecordTheInstruction
  intro i s t h _ ht
  obtain rfl := eq_ran_of_next h ht
  refine ⟨fun hl => ?leaves, fun hl hr => ?records⟩
  case leaves =>
    have hr : replacesPointers i = false := by cases i <;> cases hl <;> rfl
    rw [State.ran_npx, State.npxAfter, entry_of_leavesPointers hl]
    exact effect_pointers hr _ _ _ _
  case records =>
    have hi : isEsc i = true := by
      cases i with
      | wait p => cases hl
      | _ => rfl
    obtain ⟨hfip, hfdp, hfop⟩ := effect_pointers hr s.draws (s.format i) (operandBytes s i) (s.entry i)
    rw [entry_of_records hl hr] at hfip hfdp hfop
    rw [State.ran_npx, State.npxAfter, entry_of_records hl hr, hfip, hfdp, hfop]
    refine ⟨rfl, rfl, fun hm => linearForm_toNat hm _ _ _, encode_eq_fop hi, fun o ho => ?_⟩
    rw [ho]
    exact ⟨rfl, rfl, fun hm => linearForm_toNat hm _ _ _⟩

end Sys2Proof.Machine
end

section
/-! PROOFS. How an instruction that decides a result ends (spec/40_numerics_common.md R153 to R156, R170 to R178): the flags,
C1, and either the result delivered or nothing written. One predicate, `Ends`, says it for every kind of delivery. -/

namespace Sys2Proof.Machine

/-! The condition code written after a result. -/

/-- C3, C2, C0 written (R177). -/
def Npx.code (x : Npx) (c : CompareCode) : Npx := x.withSw (x.sw.withCc c.c3 c.c2 c.c0)

/-- The drawn C3, C2, C0 of the instruction numbered n (log 13). -/
def drawnCode (n : Nat) : CompareCode :=
  { c3 := (drawnCc n).getLsbD 2, c2 := (drawnCc n).getLsbD 1, c0 := (drawnCc n).getLsbD 0 }

theorem Npx.undefCc_eq_code (x : Npx) (n : Nat) : x.undefCc n = x.code (drawnCode n) := rfl

@[simp] theorem Npx.code_cw (x : Npx) (c : CompareCode) : (x.code c).cw = x.cw := rfl
@[simp] theorem Npx.code_regs (x : Npx) (c : CompareCode) : (x.code c).regs = x.regs := rfl
@[simp] theorem Npx.code_tags (x : Npx) (c : CompareCode) : (x.code c).tags = x.tags := rfl
@[simp] theorem Npx.code_reg (x : Npx) (c : CompareCode) (k : Idx) : (x.code c).reg k = x.reg k := rfl
@[simp] theorem Npx.code_tag (x : Npx) (c : CompareCode) (k : Idx) : (x.code c).tag k = x.tag k := rfl
@[simp] theorem Npx.code_sw (x : Npx) (c : CompareCode) : (x.code c).sw = x.sw.withCc c.c3 c.c2 c.c0 := rfl

/-! Tags after pops (R154). -/

/-- Register k is among the n registers from `top` on exactly when it is `top`, or among the n - 1 from the next one on. -/
theorem sub_toNat_lt_succ_iff (k top : Idx) (n : Nat) :
    (k - top).toNat < n + 1 ↔ (k - (top + 1)).toNat < n ∨ top = k := by
  constructor
  · intro h
    by_cases e : top = k
    · exact .inr e
    · exact .inl (by bv_omega)
  · rintro (h | rfl)
    · bv_omega
    · simp

theorem Npx.pops_tag (n : Nat) (x : Npx) (k : Idx) :
    (Npx.pops n x).tag k = if (k - x.sw.top).toNat < n then .empty else x.tag k := by
  induction n generalizing x with
  | zero => rfl
  | succ n ih =>
    rw [Npx.pops_succ, ih, Npx.pop_tag]
    have h := sub_toNat_lt_succ_iff k x.sw.top n
    by_cases h1 : (k - (x.sw.top + 1)).toNat < n
    · rw [if_pos (h.2 (.inl h1))]
      exact if_pos h1
    · by_cases h2 : x.sw.top = k
      · rw [if_pos (h.2 (.inr h2)), if_pos h2, ite_self]
      · rw [if_neg (fun h3 => (h.1 h3).elim h1 h2), if_neg h2]
        exact if_neg h1

theorem popped_zero {x y : Npx} (h : OnlyAt x y []) : Popped 0 x y := by
  obtain ⟨htop, hk⟩ := h
  exact ⟨by simp [htop], Npx.regs_ext _ _ fun k => (hk k List.not_mem_nil).1,
    fun k => by simp [(hk k List.not_mem_nil).2]⟩

theorem onlyAt_nil_of_popped {x y : Npx} (h : Popped 0 x y) : OnlyAt x y [] := by
  obtain ⟨htop, hregs, htag⟩ := h
  exact ⟨by simpa using htop, fun k _ => ⟨by simp [Npx.reg, hregs], by simpa using htag k⟩⟩

/-! The ends. -/

/-- y is how an instruction that starts with x and decides the result r ends: the flags of r, ES, B and C1, and what r
delivers (`done`), or nothing changed where it delivers nothing (R173, R174). -/
structure Ends {α : Type} (x y : Npx) (done : α → Prop) (r : Result α) : Prop where
  raised : Raised x y r.signals r.sf
  es : y.sw.es = (x.sw.es || r.signals.unmasked x.cw)
  b : y.sw.b = (x.sw.b || r.signals.unmasked x.cw)
  c1 : ∀ b, r.c1 = .set b → y.sw.c1 = b
  c1_keep : r.c1 = .keep → y.sw.c1 = x.sw.c1
  delivers : ∀ v, r.val = some v → done v
  aborts : r.val = none → OnlyAt x y []

/-- Flags, ES, B and C1 are those of `note`, whatever TOP and the condition code become. -/
theorem Ends.of_sw {α : Type} {x y : Npx} {done : α → Prop} {r : Result α} {n : Nat} {t : Idx} {c : CompareCode}
    (hsw : y.sw = ((x.note n r).sw.withTop t).withCc c.c3 c.c2 c.c0) (hd : ∀ v, r.val = some v → done v)
    (ha : r.val = none → OnlyAt x y []) : Ends x y done r where
  raised := by rw [Raised, hsw]; simp
  es := by rw [hsw]; simp
  b := by rw [hsw]; simp
  c1 b hb := by rw [hsw]; simp [hb]
  c1_keep hk := by rw [hsw]; simp [hk]
  delivers := hd
  aborts := ha

theorem Npx.note_top {α : Type} (x : Npx) (n : Nat) (r : Result α) : (x.note n r).sw.top = x.sw.top := by simp

theorem onlyAt_note {α : Type} (x : Npx) (n : Nat) (r : Result α) (c : CompareCode) :
    OnlyAt x ((x.note n r).code c) [] := ⟨by simp, fun _ _ => ⟨rfl, rfl⟩⟩

theorem Ends.of_aborted {α : Type} (x : Npx) (done : α → Prop) {r : Result α} (hv : r.val = none) (n : Nat)
    (c : CompareCode) : Ends x ((x.note n r).code c) done r :=
  .of_sw (t := (x.note n r).sw.top) (n := n) (c := c) rfl (fun v h => by cases hv.symm.trans h)
    fun _ => onlyAt_note x n r c

theorem ends_deliverTo (x : Npx) (n : Nat) (dest : Idx) (pops : Nat) (r : Result Ext) (c : CompareCode) :
    Ends x ((x.deliverTo n (x.phys dest) pops r).code c)
      (Delivered x ((x.deliverTo n (x.phys dest) pops r).code c) dest pops) r := by
  unfold Npx.deliverTo
  cases hv : r.val with
  | none => exact .of_aborted x _ hv n c
  | some v =>
    refine .of_sw (n := n) (c := c) (t := x.sw.top + BitVec.ofNat 3 pops) (by simp [Npx.pops_sw]) (fun w hw => ?_) (by simp [hv])
    cases hv.symm.trans hw
    refine ⟨by simp, by simp [Npx.pops_sw], fun k hk => by simp [hk.symm], fun k => ?_⟩
    simp [Npx.pops_tag, eq_comm (a := x.phys dest)]

theorem ends_deliverPush (x : Npx) (n : Nat) (r : Result Ext) (c : CompareCode) :
    Ends x ((x.deliverPush n r).code c) (Pushed x ((x.deliverPush n r).code c)) r := by
  unfold Npx.deliverPush
  cases hv : r.val with
  | none => exact .of_aborted x _ hv n c
  | some v =>
    refine .of_sw (n := n) (c := c) (t := x.sw.top - 1) (by simp) (fun w hw => ?_) (by simp [hv])
    cases hv.symm.trans hw
    refine ⟨by simp, by simp, by simp, fun k hk => ⟨?_, ?_⟩⟩
    · rw [Npx.code_reg, Npx.push_reg, Npx.note_top, if_neg hk.symm, Npx.note_reg]
    · rw [Npx.code_tag, Npx.push_tag, Npx.note_top, if_neg hk.symm, Npx.note_tag]

/-- TOP and the register below it are two registers. -/
theorem sub_one_ne (t : Idx) : t - 1 ≠ t := by bv_omega

theorem ends_deliverPair (x : Npx) (n : Nat) (r : Result (Ext × Ext)) (c : CompareCode) :
    Ends x ((x.deliverPair n r).code c) (fun v => DeliveredPair x ((x.deliverPair n r).code c) v.1 v.2) r := by
  unfold Npx.deliverPair
  cases hv : r.val with
  | none => exact .of_aborted x _ hv n c
  | some v =>
    refine .of_sw (n := n) (c := c) (t := x.sw.top - 1) (by simp) (fun w hw => ?_) (by simp [hv])
    cases hv.symm.trans hw
    have h := sub_one_ne x.sw.top
    refine ⟨by simp, by simp [Npx.st], ?_, by simp, ?_, fun k hk hk' => ⟨?_, ?_⟩⟩
    · simp [Npx.st, Npx.phys]
    · rw [Npx.code_tag, Npx.push_tag, Npx.setReg_sw, Npx.note_top, if_neg h, Npx.setReg_tag, if_pos rfl]
    · rw [Npx.code_reg, Npx.push_reg, Npx.setReg_sw, Npx.note_top, if_neg hk'.symm, Npx.setReg_reg, if_neg hk.symm,
        Npx.note_reg]
    · rw [Npx.code_tag, Npx.push_tag, Npx.setReg_sw, Npx.note_top, if_neg hk'.symm, Npx.setReg_tag, if_neg hk.symm,
        Npx.note_tag]

theorem popped_pops {α : Type} (x : Npx) (n : Nat) (r : Result α) (pops : Nat) (c : CompareCode) :
    Popped pops x ((Npx.pops pops (x.note n r)).code c) :=
  ⟨by simp [Npx.pops_sw], by simp, fun k => by simp [Npx.pops_tag]⟩

theorem ends_stored (x : Npx) (n pops : Nat) (r : Result Nat) :
    Ends x (x.stored n pops r) (fun _ => Popped pops x (x.stored n pops r)) r := by
  unfold Npx.stored
  cases hv : r.val with
  | none => exact .of_aborted x _ hv n (drawnCode n)
  | some v =>
    exact .of_sw (t := x.sw.top + BitVec.ofNat 3 pops) (c := drawnCode n) (n := n)
      (by simp [Npx.pops_sw, StatusWord.undefCc, drawnCode]) (fun _ _ => popped_pops x n r pops (drawnCode n)) (by simp [hv])

/-- A comparison leaves its code and pops, or nothing but drawn bits (R230). -/
theorem ends_compared (x : Npx) (n pops : Nat) (r : Result CompareCode) :
    Ends x (x.compared n pops r)
      (fun c => Popped pops x (x.compared n pops r) ∧ (x.compared n pops r).sw.c3 = c.c3 ∧
        (x.compared n pops r).sw.c2 = c.c2 ∧ (x.compared n pops r).sw.c0 = c.c0) r := by
  unfold Npx.compared
  cases hv : r.val with
  | none => exact .of_aborted x _ hv n (drawnCode n)
  | some c =>
    refine .of_sw (t := x.sw.top + BitVec.ofNat 3 pops) (c := c) (n := n) (by simp [Npx.pops_sw]; rfl) (fun d hd => ?_)
      (by simp [hv])
    cases hv.symm.trans hd
    exact ⟨⟨by simp [Npx.pops_sw], by simp, fun k => by simp [Npx.pops_tag]⟩, by simp [Npx.pops_sw], by simp [Npx.pops_sw],
      by simp [Npx.pops_sw]⟩

/-! Starting changes the pointers alone, which no end speaks of. -/

theorem State.entry_eq (s : State) (i : Instr) :
    ∃ a b c, s.entry i = { s.npx with fip := a, fdp := b, fop := c } := by
  unfold State.entry State.started
  split
  · split
    · exact ⟨_, _, _, rfl⟩
    · exact ⟨_, _, _, rfl⟩
  · exact ⟨_, _, _, rfl⟩

theorem Ends.of_entry {α : Type} {s : State} {i : Instr} {y : Npx} {done : α → Prop} {r : Result α}
    (h : Ends (s.entry i) y done r) : Ends s.npx y done r where
  raised := by simpa [Raised] using h.raised
  es := by simpa using h.es
  b := by simpa using h.b
  c1 := h.c1
  c1_keep := by simpa using h.c1_keep
  delivers := h.delivers
  aborts hv := by simpa [OnlyAt] using h.aborts hv

theorem Ends.mono {α : Type} {x y : Npx} {done done' : α → Prop} {r : Result α} (h : Ends x y done r)
    (hd : ∀ v, done v → done' v) : Ends x y done' r := { h with delivers := fun v hv => hd v (h.delivers v hv) }

/-! A masked or unmasked response (R171). -/

/-- How an instruction whose result is an invalid operation of response v ends, masked or not. -/
theorem Ends.invalid_response {α : Type} {x y : Npx} {done : α → Prop} {r : Result α} {cw : ControlWord} {v : α}
    (h : Ends x y done r) (hv : r.val = if cw.im then some v else none) :
    (cw.im = true → done v) ∧ (cw.im = false → OnlyAt x y []) :=
  ⟨fun him => h.delivers v (by rw [hv, if_pos him]), fun him => h.aborts (by rw [hv, if_neg (ne_true_of_eq_false him)])⟩

theorem sameFlags_of_raised {x y : Npx} (h : Raised x y {}) : SameFlags x y := by
  simpa [Raised, SameFlags] using h

end Sys2Proof.Machine
end

section
/-! PROOFS. The families of instructions, each with the result it decides and the way it ends: pushes, computed and copied
results, pairs, comparisons and stores. -/

namespace Sys2Proof.Machine

/-! What each family decides. -/

/-- The register operands that are tested first: one of them is empty (R155). -/
def computedVacant (i : Instr) (x : Npx) : Bool :=
  match arithForm i with
  | some a => a.vacant x
  | none =>
    match i with
    | .fscale _ | .fprem _ | .fprem1 _ | .fpatan _ | .fyl2x _ | .fyl2xp1 _ => x.empty 0 || x.empty 1
    | _ => x.empty 0

/-- What an instruction that computes or copies one result decides when its operands are there; n is the draw counter, v what
the memory operand holds. -/
def computedValue (i : Instr) (n v : Nat) (x : Npx) : Result Ext :=
  match arithForm i with
  | some a => binop x.cw a.op (precisionOf x.cw.pc) (a.left.operand x v) (a.right.operand x v)
  | none =>
    match i with
    | .fsqrt _ => sqrtResult x.cw (x.st 0)
    | .frndint _ => rndintResult x.cw (x.st 0)
    | .f2xm1 _ => exp2m1Result x.cw n (x.st 0)
    | .fsin _ => trigResult x.cw .sin sinSign (fun y => y) (x.st 0)
    | .fcos _ => trigResult x.cw .cos cosSign (fun _ => one) (x.st 0)
    | .fscale _ => scaleResult x.cw (x.st 0) (x.st 1)
    | .fprem _ => (premOutcome x.cw false (x.st 0) (x.st 1)).result
    | .fprem1 _ => (premOutcome x.cw true (x.st 0) (x.st 1)).result
    | .fpatan _ => atanResult x.cw (x.st 0) (x.st 1)
    | .fyl2x _ => yl2xResult x.cw (x.st 0) (x.st 1)
    | .fyl2xp1 _ => yl2xp1Result x.cw n (x.st 0) (x.st 1)
    | _ => .ok (x.st 0)

/-- The stack test, then the value (R155). -/
def computed (i : Instr) (n v : Nat) (x : Npx) : Result Ext :=
  if computedVacant i x then .underflow x.cw qnanIndef else computedValue i n v x

/-- C3, C2, C0 after it: a quotient's bits (R32), C2 of the trigonometric instructions (R309), else drawn. -/
def computedCode (i : Instr) (n : Nat) (x : Npx) : CompareCode :=
  match i with
  | .fsin _ | .fcos _ => { drawnCode n with c2 := false }
  | .fprem _ =>
    if x.empty 0 || x.empty 1 then drawnCode n else (premOutcome x.cw false (x.st 0) (x.st 1)).code.getD (drawnCode n)
  | .fprem1 _ =>
    if x.empty 0 || x.empty 1 then drawnCode n else (premOutcome x.cw true (x.st 0) (x.st 1)).code.getD (drawnCode n)
  | _ => drawnCode n

/-- What FXTRACT, FPTAN and FSINCOS decide when ST(0) is there and the stack has room. -/
def pairValue (i : Instr) (x : Npx) : Result (Ext × Ext) :=
  match i with
  | .fptan _ => tanResult x.cw (x.st 0)
  | .fsincos _ => sincosResult x.cw (x.st 0)
  | _ => xtractResult x.cw (x.st 0)

/-- The two stack tests, then the pair (R289, R302, D34). -/
def pairResult (i : Instr) (x : Npx) : Result (Ext × Ext) :=
  if x.empty 0 then .underflow x.cw (qnanIndef, qnanIndef)
  else if x.full then .overflow x.cw (qnanIndef, qnanIndef)
  else pairValue i x

/-- C2 is cleared by FPTAN and FSINCOS (R309). -/
def pairCode (i : Instr) (n : Nat) : CompareCode :=
  match i with
  | .fptan _ | .fsincos _ => { drawnCode n with c2 := false }
  | _ => drawnCode n

/-- A trigonometric instruction of an operand too large to reduce (R309). -/
def declines (i : Instr) (x : Npx) : Bool :=
  match i with
  | .fsin _ | .fcos _ => !x.empty 0 && x.topTooLarge
  | .fptan _ | .fsincos _ => !x.empty 0 && !x.full && x.topTooLarge
  | _ => false

/-- What a comparison decides (R230). -/
def compareResult (i : Instr) (q : Source) (v : Nat) (x : Npx) : Result CompareCode :=
  if compareVacant q x then .underflow x.cw .unordered
  else compareOperands x.cw (ordered i) (x.operand 0) (q.operand x v)

/-! `effect` of each family. -/

theorem effect_push {i : Instr} (h : pushesOne i = true) (n : Nat) (fmt : ImageFormat) (v : Nat) (x : Npx) :
    effect i n fmt v x = (x.deliverPush n (pushResult i x v)).code (drawnCode n) := if_pos h

theorem effect_arith {i : Instr} {a : ArithForm} (h : arithForm i = some a) (n : Nat) (fmt : ImageFormat) (v : Nat)
    (x : Npx) :
    effect i n fmt v x =
      x.arith n a.op (a.vacant x) (a.left.operand x v) (a.right.operand x v) (x.phys a.dest) a.pops := by
  have hp : pushesOne i = false := by cases i <;> cases h <;> rfl
  rw [effect, hp, h]
  rfl

theorem effect_compare {i : Instr} {q : Source} {pops : Nat} (h : compareForm i = some (q, pops)) (n : Nat)
    (fmt : ImageFormat) (v : Nat) (x : Npx) : effect i n fmt v x = x.compared n pops (compareResult i q v x) := by
  have hp : pushesOne i = false := by cases i <;> cases h <;> rfl
  have ha : arithForm i = none := by cases i <;> cases h <;> rfl
  rw [effect, hp, ha, h]
  rfl

theorem effect_store {i : Instr} {indef pops : Nat} (h : storeForm i = some (indef, pops)) (n : Nat) (fmt : ImageFormat)
    (v : Nat) (x : Npx) : effect i n fmt v x = x.stored n pops (storeResult i indef x) := by
  have hp : pushesOne i = false := by cases i <;> cases h <;> rfl
  have ha : arithForm i = none := by cases i <;> cases h <;> rfl
  have hc : compareForm i = none := by cases i <;> cases h <;> rfl
  rw [effect, hp, ha, hc, h]
  rfl

/-- FPREM and FPREM1 end as every computed result does, with their own code. -/
theorem Npx.prem_eq (x : Npx) (n : Nat) (nearest : Bool) :
    x.prem n nearest =
      (x.deliverTo n (x.phys 0) 0 (if x.empty 0 || x.empty 1 then .underflow x.cw qnanIndef
        else (premOutcome x.cw nearest (x.st 0) (x.st 1)).result)).code
        (if x.empty 0 || x.empty 1 then drawnCode n
          else (premOutcome x.cw nearest (x.st 0) (x.st 1)).code.getD (drawnCode n)) := by
  unfold Npx.prem
  cases x.empty 0 || x.empty 1 with
  | true => rfl
  | false =>
    simp only [Bool.false_eq_true, if_false]
    cases (premOutcome x.cw nearest (x.st 0) (x.st 1)).code <;> rfl

theorem Npx.trig_eq {x : Npx} (h : (!x.empty 0 && x.topTooLarge) = false) (n : Nat) (f : Ext → Result Ext) :
    x.trig n f = (x.deliverTo n (x.phys 0) 0 (if x.empty 0 then .underflow x.cw qnanIndef else f (x.st 0))).code
      { drawnCode n with c2 := false } := by
  rw [Npx.trig, h]
  rfl

theorem Npx.trigPair_eq {x : Npx} (h : (!x.empty 0 && !x.full && x.topTooLarge) = false) (n : Nat)
    (f : Ext → Result (Ext × Ext)) :
    x.trigPair n f = (x.deliverPair n
      (if x.empty 0 then .underflow x.cw (qnanIndef, qnanIndef)
       else if x.full then .overflow x.cw (qnanIndef, qnanIndef)
       else f (x.st 0))).code { drawnCode n with c2 := false } := by
  rw [Npx.trigPair, h]
  rfl

theorem computes_of_arith {i : Instr} {a : ArithForm} (h : arithForm i = some a) :
    computes i = some ⟨[a.left, a.right], a.dest, a.pops⟩ := by
  unfold computes
  simp only [h]

theorem computed_of_arith {i : Instr} {a : ArithForm} (h : arithForm i = some a) (n v : Nat) (x : Npx) :
    computed i n v x = if a.vacant x then .underflow x.cw qnanIndef
      else binop x.cw a.op (precisionOf x.cw.pc) (a.left.operand x v) (a.right.operand x v) := by
  unfold computed computedVacant computedValue
  simp only [h]

/-- A computed or copied result is delivered. -/
theorem effect_computes {i : Instr} {f : ResultForm} (h : computes i = some f ∨ copies i = some f) {x : Npx}
    (hd : declines i x = false) (n : Nat) (fmt : ImageFormat) (v : Nat) :
    effect i n fmt v x = (x.deliverTo n (x.phys f.dest) f.pops (computed i n v x)).code (computedCode i n x) := by
  cases ha : arithForm i with
  | some a =>
    have hf : f = ⟨[a.left, a.right], a.dest, a.pops⟩ := by
      rcases h with h | h
      · exact (Option.some.inj ((computes_of_arith ha).symm.trans h)).symm
      · cases i <;> cases h <;> cases ha
    have hc : computedCode i n x = drawnCode n := by cases i <;> cases ha <;> rfl
    rw [effect_arith ha, hf, hc, computed_of_arith ha]
    rfl
  | none =>
    cases i with
    | fsin p | fcos p =>
      rcases h with h | h <;> cases h
      exact Npx.trig_eq hd n _
    | fprem p | fprem1 p =>
      rcases h with h | h <;> cases h
      exact Npx.prem_eq x n _
    | fsqrt p | frndint p | f2xm1 p | fscale p | fpatan p | fyl2x p | fyl2xp1 p | fstSti p j | fstpSti p j =>
      rcases h with h | h <;> cases h
      rfl
    | _ => cases ha <;> rcases h with h | h <;> cases h

theorem effect_pair {i : Instr} (h : makesPair i = true) {x : Npx} (hd : declines i x = false) (n : Nat)
    (fmt : ImageFormat) (v : Nat) :
    effect i n fmt v x = (x.deliverPair n (pairResult i x)).code (pairCode i n) := by
  cases i with
  | fxtract p => rfl
  | fptan p | fsincos p => exact Npx.trigPair_eq hd n _
  | _ => cases h

theorem effect_declines {i : Instr} {x : Npx} (hd : declines i x = true) (n : Nat) (fmt : ImageFormat) (v : Nat) :
    effect i n fmt v x = x.notReduced n := by
  cases i with
  | fsin p | fcos p => exact if_pos hd
  | fptan p | fsincos p => exact if_pos hd
  | _ => cases hd

end Sys2Proof.Machine
end

section
/-! PROOFS. Stack faults, bit copies, FXCH and FXAM (spec/40_numerics_common.md R153 to R156, spec/41_data_transfer.md), from
the families of instructions. -/

namespace Sys2Proof.Machine

/-! Every family's end, read from the state the instruction runs in: none of what is decided looks at a pointer. -/

section

variable {s : State} {i : Instr}

theorem ran_computes {f : ResultForm} (h : computes i = some f ∨ copies i = some f) (hd : declines i s.npx = false) :
    Ends s.npx (s.ran i).npx (Delivered s.npx (s.ran i).npx f.dest f.pops)
      (computed i s.draws (operandBytes s i) s.npx) := by
  obtain ⟨a, b, c, he⟩ := s.entry_eq i
  have hd' : declines i (s.entry i) = false := by rw [he]; exact hd
  have hr : computed i s.draws (operandBytes s i) (s.entry i) = computed i s.draws (operandBytes s i) s.npx := by
    rw [he]; rfl
  have e := ends_deliverTo (s.entry i) s.draws f.dest f.pops (computed i s.draws (operandBytes s i) (s.entry i))
    (computedCode i s.draws (s.entry i))
  rw [← effect_computes h hd' s.draws (s.format i)] at e
  rw [hr] at e
  exact e.of_entry.mono fun v hv => by simpa [Delivered, State.npxAfter] using hv

theorem ran_computes_code {f : ResultForm} (h : computes i = some f ∨ copies i = some f)
    (hd : declines i s.npx = false) :
    (s.ran i).npx.sw.c3 = (computedCode i s.draws s.npx).c3 ∧ (s.ran i).npx.sw.c2 = (computedCode i s.draws s.npx).c2 ∧
      (s.ran i).npx.sw.c0 = (computedCode i s.draws s.npx).c0 := by
  obtain ⟨a, b, c, he⟩ := s.entry_eq i
  have hd' : declines i (s.entry i) = false := by rw [he]; exact hd
  have hc : computedCode i s.draws (s.entry i) = computedCode i s.draws s.npx := by rw [he]; rfl
  rw [State.ran_npx, State.npxAfter, effect_computes h hd', hc]
  exact ⟨rfl, rfl, rfl⟩

theorem ran_push (h : pushesOne i = true) :
    Ends s.npx (s.ran i).npx (Pushed s.npx (s.ran i).npx) (pushResult i s.npx (operandBytes s i)) := by
  obtain ⟨a, b, c, he⟩ := s.entry_eq i
  have hr : pushResult i (s.entry i) (operandBytes s i) = pushResult i s.npx (operandBytes s i) := by rw [he]; rfl
  have e := ends_deliverPush (s.entry i) s.draws (pushResult i (s.entry i) (operandBytes s i)) (drawnCode s.draws)
  rw [← effect_push h s.draws (s.format i)] at e
  rw [hr] at e
  exact e.of_entry.mono fun v hv => by simpa [Pushed, State.npxAfter] using hv

theorem ran_pair (h : makesPair i = true) (hd : declines i s.npx = false) :
    Ends s.npx (s.ran i).npx (fun v => DeliveredPair s.npx (s.ran i).npx v.1 v.2) (pairResult i s.npx) := by
  obtain ⟨a, b, c, he⟩ := s.entry_eq i
  have hd' : declines i (s.entry i) = false := by rw [he]; exact hd
  have hr : pairResult i (s.entry i) = pairResult i s.npx := by rw [he]; rfl
  have e := ends_deliverPair (s.entry i) s.draws (pairResult i (s.entry i)) (pairCode i s.draws)
  rw [← effect_pair h hd' s.draws (s.format i) (operandBytes s i)] at e
  rw [hr] at e
  exact e.of_entry.mono fun v hv => by simpa [DeliveredPair, State.npxAfter] using hv

theorem ran_pair_c2 (h : makesPair i = true) (hd : declines i s.npx = false) :
    (s.ran i).npx.sw.c2 = (pairCode i s.draws).c2 := by
  obtain ⟨a, b, c, he⟩ := s.entry_eq i
  have hd' : declines i (s.entry i) = false := by rw [he]; exact hd
  rw [State.ran_npx, State.npxAfter, effect_pair h hd']
  rfl

theorem ran_compare {q : Source} {pops : Nat} (h : compareForm i = some (q, pops)) :
    Ends s.npx (s.ran i).npx
      (fun c => Popped pops s.npx (s.ran i).npx ∧ (s.ran i).npx.sw.c3 = c.c3 ∧ (s.ran i).npx.sw.c2 = c.c2 ∧
        (s.ran i).npx.sw.c0 = c.c0) (compareResult i q (operandBytes s i) s.npx) := by
  obtain ⟨a, b, c, he⟩ := s.entry_eq i
  have hr : compareResult i q (operandBytes s i) (s.entry i) = compareResult i q (operandBytes s i) s.npx := by
    rw [he]; rfl
  have e := ends_compared (s.entry i) s.draws pops (compareResult i q (operandBytes s i) (s.entry i))
  rw [← effect_compare h s.draws (s.format i)] at e
  rw [hr] at e
  exact e.of_entry.mono fun v hv => by simpa [Popped, State.npxAfter] using hv

theorem ran_store {indef pops : Nat} (h : storeForm i = some (indef, pops)) :
    Ends s.npx (s.ran i).npx (fun _ => Popped pops s.npx (s.ran i).npx) (storeResult i indef s.npx) := by
  obtain ⟨a, b, c, he⟩ := s.entry_eq i
  have hr : storeResult i indef (s.entry i) = storeResult i indef s.npx := by rw [he]; rfl
  have e := ends_stored (s.entry i) s.draws pops (storeResult i indef (s.entry i))
  rw [← effect_store h s.draws (s.format i) (operandBytes s i)] at e
  rw [hr] at e
  exact e.of_entry.mono fun v hv => by simpa [Popped, State.npxAfter] using hv

end

/-! What a store of ST(0) leaves in memory. -/

theorem stored_of_storeForm {i : Instr} {indef pops : Nat} (h : storeForm i = some (indef, pops)) (s : State) :
    s.stored i = (storeResult i indef s.npx).val := by
  obtain ⟨a, b, c, he⟩ := s.entry_eq i
  have hr : storeResult i indef (s.entry i) = storeResult i indef s.npx := by rw [he]; rfl
  unfold State.stored written
  simp only [h, hr]

/-- The operand of a store of ST(0), wide enough for the indefinite of its format (R81, R160). -/
theorem operandOf_of_storeForm {i : Instr} {indef pops : Nat} (h : storeForm i = some (indef, pops)) (s : State) :
    ∃ o, operandOf s i = some o ∧ o.bytes ≤ 10 ∧ indef < 2 ^ (8 * o.bytes) := by
  cases i <;> cases h <;> exact ⟨_, rfl, by simp [Cpu.operand], by simp [Cpu.operand, specialBits, single, double]⟩

theorem storedBytes_ran {s : State} {i : Instr} {o : Operand} {v : Nat} (hm : s.mem.wf = true) (hv : s.stored i = some v)
    (ho : operandOf s i = some o) (hb : o.bytes ≤ 2 ^ 16) : storedBytes s (s.ran i) i = v % 2 ^ (8 * o.bytes) := by
  unfold storedBytes
  rw [ho]
  dsimp only
  rw [State.ran_mem, State.memAfter_of_some hv ho, Memory.readAll_writeAll _ _ _ o.addrs_lt (o.addrs_nodup hb) hm,
    Operand.addrs_length]

/-- Both results of a store of ST(0): the number in memory, or nothing written. -/
theorem storedBytes_of_storeForm {s : State} {i : Instr} {indef pops : Nat} (h : storeForm i = some (indef, pops))
    (hm : s.mem.wf = true) {o : Operand} (ho : operandOf s i = some o) {v : Nat}
    (hv : (storeResult i indef s.npx).val = some v) (hlt : v < 2 ^ (8 * o.bytes)) :
    storedBytes s (s.ran i) i = v := by
  obtain ⟨o', ho', hb, -⟩ := operandOf_of_storeForm h s
  cases ho.symm.trans ho'
  rw [storedBytes_ran hm ((stored_of_storeForm h s).trans hv) ho (hb.trans (by norm_num)), Nat.mod_eq_of_lt hlt]

theorem mem_ran_of_storeForm {s : State} {i : Instr} {indef pops : Nat} (h : storeForm i = some (indef, pops))
    (hv : (storeResult i indef s.npx).val = none) : (s.ran i).mem = s.mem :=
  State.memAfter_of_none ((stored_of_storeForm h s).trans hv)

/-! Stack overflow (R153, R156). -/

@[simp] theorem Result.overflow_signals {α : Type} (cw : ControlWord) (v : α) :
    (Result.overflow cw v).signals = { ie := true } := rfl
@[simp] theorem Result.overflow_sf {α : Type} (cw : ControlWord) (v : α) : (Result.overflow cw v).sf = true := rfl
@[simp] theorem Result.overflow_c1 {α : Type} (cw : ControlWord) (v : α) :
    (Result.overflow cw v).c1 = .set true := rfl

theorem pushResult_of_full {i : Instr} {x : Npx} (hf : x.full = true) (h : ∀ p j, i = .fldSti p j → x.empty j = false)
    (v : Nat) : pushResult i x v = .overflow x.cw qnanIndef := by
  cases i with
  | fldSti p j => rw [pushResult, h p j rfl, if_neg Bool.false_ne_true, if_pos hf]
  | _ => exact if_pos hf

theorem declines_of_full {i : Instr} (h : makesPair i = true) {x : Npx} (hf : x.full = true) : declines i x = false := by
  cases i <;> cases h <;> simp [declines, hf]

/-- Settles O22: the result of either family is the stack overflow. -/
theorem stackOverflowResponses : Obligations.StackOverflowResponses := by
  unfold Obligations.StackOverflowResponses
  refine ⟨fun i s hp ho hf hsrc => ?pushes, fun i s hp ho he hf => ?pairs⟩
  case pushes =>
    have e := ran_push (s := s) hp
    rw [pushResult_of_full hf hsrc] at e
    exact ⟨_, exec_of_operable ho, e.raised, e.c1 true rfl, e.invalid_response rfl⟩
  case pairs =>
    have e := ran_pair (s := s) hp (declines_of_full hp hf)
    have hr : pairResult i s.npx = .overflow s.npx.cw (qnanIndef, qnanIndef) := by
      rw [pairResult, he, if_neg Bool.false_ne_true, if_pos hf]
    rw [hr] at e
    exact ⟨_, exec_of_operable ho, e.raised, e.c1 true rfl, e.invalid_response rfl⟩

/-! Stack underflow (R155). -/

/-- An arithmetic form's register operands, as the statement speaks of them. -/
theorem vacant_eq (a : ArithForm) (s : State) (i : Instr) :
    a.vacant s.npx = ((datum s i a.left).empty || (datum s i a.right).empty) := by
  obtain ⟨op, l, r, d, p⟩ := a
  cases l <;> cases r <;> simp [ArithForm.vacant, datum]

theorem hasEmpty_eq {i : Instr} {f : ResultForm} (h : computes i = some f ∨ copies i = some f) (s : State) :
    f.hasEmpty s i = computedVacant i s.npx := by
  cases ha : arithForm i with
  | some a =>
    have hf : computes i = some f := h.resolve_right fun h => by cases i <;> cases h <;> cases ha
    cases (computes_of_arith ha).symm.trans hf
    unfold computedVacant
    simp [ha, vacant_eq a s i, ResultForm.hasEmpty]
  | none =>
    cases i with
    | fsqrt p | frndint p | f2xm1 p | fsin p | fcos p | fstSti p j | fstpSti p j =>
      rcases h with h | h <;> cases h
      exact Bool.or_false _
    | fscale p | fprem p | fprem1 p | fpatan p | fyl2x p | fyl2xp1 p =>
      rcases h with h | h <;> cases h
      exact congrArg _ (Bool.or_false _)
    | _ => cases ha <;> rcases h with h | h <;> cases h

theorem declines_of_empty {i : Instr} {x : Npx} (h : x.empty 0 = true) : declines i x = false := by
  cases i with
  | fsin p | fcos p | fptan p | fsincos p => rw [declines, h]; rfl
  | _ => rfl

theorem declines_of_vacant {i : Instr} {x : Npx} (h : computedVacant i x = true) : declines i x = false := by
  cases i with
  | fsin p | fcos p | fptan p | fsincos p => exact declines_of_empty h
  | _ => rfl

theorem compareVacant_eq (q : Source) (s : State) (i : Instr) :
    compareVacant q s.npx = (s.npx.empty 0 || (datum s i q).empty) := by
  cases q <;> simp [compareVacant, datum]

/-! FXCH (R222). -/

/-- Either register of an exchange is empty. -/
theorem Npx.fxch_of_empty {x : Npx} {j : Idx} (h : x.empty 0 = true ∨ x.empty j = true) (n : Nat) :
    x.fxch n j = if x.cw.im then
      ((((x.note n (Result.underflow x.cw ())).fillEmpty 0).fillEmpty j).exchange (x.phys 0) (x.phys j)).undefCc n
      else (x.note n (Result.underflow x.cw ())).undefCc n := by
  have : (x.empty 0 || x.empty j) = true := by simpa using h
  rw [Npx.fxch, if_pos this]
  split <;> rfl

theorem Npx.fxch_of_present {x : Npx} {j : Idx} (h0 : x.empty 0 = false) (hj : x.empty j = false) (n : Nat) :
    x.fxch n j = ((x.note n (Result.ok ())).exchange (x.phys 0) (x.phys j)).undefCc n := by
  rw [Npx.fxch, h0, hj]
  rfl

@[simp] theorem Npx.exchange_sw (x : Npx) (j k : Idx) : (x.exchange j k).sw = x.sw := rfl
@[simp] theorem Npx.fillEmpty_sw (x : Npx) (j : Idx) : (x.fillEmpty j).sw = x.sw := by
  unfold Npx.fillEmpty
  split <;> rfl

theorem Npx.fillEmpty_reg (x : Npx) (j m : Idx) :
    (x.fillEmpty j).reg m = if x.empty j = true ∧ x.phys j = m then qnanIndef else x.reg m := by
  unfold Npx.fillEmpty
  split
  case isTrue h => simp [h]
  case isFalse h => simp [h]

theorem tagOf_qnanIndef : tagOf qnanIndef = .special := by decide

theorem Npx.fillEmpty_tag (x : Npx) (j m : Idx) :
    (x.fillEmpty j).tag m = if x.empty j = true ∧ x.phys j = m then .special else x.tag m := by
  unfold Npx.fillEmpty
  split
  case isTrue h => simp [h, tagOf_qnanIndef]
  case isFalse h => simp [h]

theorem Npx.phys_inj (x : Npx) {a b : Idx} : x.phys a = x.phys b ↔ a = b := by
  unfold Npx.phys
  constructor <;> intro h <;> bv_omega

/-- Register k is ST(a) or ST(b), and empty. -/
def FilledBy (x : Npx) (a b k : Idx) : Prop :=
  (x.empty a = true ∧ x.phys a = k) ∨ (x.empty b = true ∧ x.phys b = k)

theorem fillBoth (x : Npx) (a b k : Idx) :
    (FilledBy x a b k → ((x.fillEmpty a).fillEmpty b).reg k = qnanIndef ∧
      ((x.fillEmpty a).fillEmpty b).tag k = .special) ∧
    (¬FilledBy x a b k → ((x.fillEmpty a).fillEmpty b).reg k = x.reg k ∧
      ((x.fillEmpty a).fillEmpty b).tag k = x.tag k) := by
  have hp : (x.fillEmpty a).phys b = x.phys b := by simp [Npx.phys]
  have he : (x.fillEmpty a).empty b = true ↔ x.empty b = true ∧ ¬(x.empty a = true ∧ x.phys a = x.phys b) := by
    rw [Npx.empty, hp, Npx.fillEmpty_tag]
    split <;> simp_all [Npx.empty]
  unfold FilledBy
  rw [Npx.fillEmpty_reg, Npx.fillEmpty_tag, Npx.fillEmpty_reg, Npx.fillEmpty_tag, hp]
  simp only [he]
  constructor
  · rintro (⟨h, rfl⟩ | ⟨h, rfl⟩)
    · simp [h]
    · by_cases ha : x.empty a = true ∧ x.phys a = x.phys b
      · simp [ha]
      · simp [ha, h]
  · intro h
    rw [if_neg fun h' => h (.inr ⟨h'.1.1, h'.2⟩), if_neg fun h' => h (.inl h'), if_neg fun h' => h (.inr ⟨h'.1.1, h'.2⟩),
      if_neg fun h' => h (.inl h')]
    exact ⟨rfl, rfl⟩

theorem filledBy_left (x : Npx) (a b : Idx) : FilledBy x a b (x.phys a) ↔ x.empty a = true := by
  constructor
  · rintro (⟨h, -⟩ | ⟨h, e⟩)
    · exact h
    · exact x.phys_inj.1 e ▸ h
  · exact fun h => .inl ⟨h, rfl⟩

theorem filledBy_right (x : Npx) (a b : Idx) : FilledBy x a b (x.phys b) ↔ x.empty b = true := by
  rw [FilledBy, or_comm]
  exact filledBy_left x b a

/-- What a register holds once the empty ones are filled. -/
theorem fillBoth_at {x : Npx} {a b m : Idx} (h : FilledBy x a b (x.phys m) ↔ x.empty m = true) :
    ((x.fillEmpty a).fillEmpty b).reg (x.phys m) = (if x.empty m then qnanIndef else x.st m) ∧
      ((x.fillEmpty a).fillEmpty b).tag (x.phys m) = if x.empty m then .special else x.tag (x.phys m) := by
  obtain ⟨hin, hout⟩ := fillBoth x a b (x.phys m)
  cases he : x.empty m with
  | true => exact hin (h.2 he)
  | false => exact hout fun hf => Bool.false_ne_true (he.symm.trans (h.1 hf))

theorem Npx.exchange_left (x : Npx) (j k : Idx) :
    (x.exchange j k).reg j = x.reg k ∧ (x.exchange j k).tag j = x.tag k := by
  rw [Npx.exchange_reg, Npx.exchange_tag, if_pos rfl, if_pos rfl]
  split
  case isTrue h => exact h ▸ ⟨rfl, rfl⟩
  case isFalse => exact ⟨rfl, rfl⟩

theorem Npx.exchange_right (x : Npx) (j k : Idx) :
    (x.exchange j k).reg k = x.reg j ∧ (x.exchange j k).tag k = x.tag j := by
  rw [Npx.exchange_reg, Npx.exchange_tag, if_pos rfl, if_pos rfl]
  exact ⟨rfl, rfl⟩

theorem Npx.exchange_other (x : Npx) {j k m : Idx} (hj : m ≠ j) (hk : m ≠ k) :
    (x.exchange j k).reg m = x.reg m ∧ (x.exchange j k).tag m = x.tag m := by
  rw [Npx.exchange_reg, Npx.exchange_tag, if_neg hj.symm, if_neg hk.symm, if_neg hj.symm, if_neg hk.symm]
  exact ⟨rfl, rfl⟩

/-- A masked exchange with an empty register: what the two hold, filled where they were empty, exchanged. -/
theorem fxch_masked {x : Npx} {j : Idx} (h : x.empty 0 = true ∨ x.empty j = true) (hm : x.cw.im = true) (n : Nat) :
    (x.fxch n j).reg (x.phys 0) = (if x.empty j then qnanIndef else x.st j) ∧
      (x.fxch n j).reg (x.phys j) = (if x.empty 0 then qnanIndef else x.st 0) ∧
      (x.fxch n j).tag (x.phys 0) = (if x.empty j then .special else x.tag (x.phys j)) ∧
      (x.fxch n j).tag (x.phys j) = (if x.empty 0 then .special else x.tag (x.phys 0)) ∧
      OnlyAt x (x.fxch n j) [x.phys 0, x.phys j] := by
  rw [Npx.fxch_of_empty h, if_pos hm]
  generalize hy : x.note n (Result.underflow x.cw ()) = y
  have hp (m : Idx) : y.phys m = x.phys m := by rw [← hy]; simp [Npx.phys]
  have hr (k : Idx) : y.reg k = x.reg k := by rw [← hy]; rfl
  have ht (k : Idx) : y.tag k = x.tag k := by rw [← hy]; rfl
  have he (m : Idx) : y.empty m = x.empty m := by simp only [Npx.empty, hp, ht]
  have hs (m : Idx) : y.st m = x.st m := by simp only [Npx.st, hp, hr]
  obtain ⟨hl, hlt⟩ := Npx.exchange_left ((y.fillEmpty 0).fillEmpty j) (x.phys 0) (x.phys j)
  obtain ⟨hright, hrt⟩ := Npx.exchange_right ((y.fillEmpty 0).fillEmpty j) (x.phys 0) (x.phys j)
  obtain ⟨h0, h0t⟩ := fillBoth_at (filledBy_left y 0 j)
  obtain ⟨hj, hjt⟩ := fillBoth_at (filledBy_right y 0 j)
  rw [hp, he, hs] at h0 hj
  rw [hp, he, ht] at h0t hjt
  refine ⟨hl.trans hj, hright.trans h0, hlt.trans hjt, hrt.trans h0t, ?_, fun k hk => ?_⟩
  · rw [← hy]; simp
  · have hk0 : k ≠ x.phys 0 := fun e => hk (e ▸ List.mem_cons_self)
    have hkj : k ≠ x.phys j := fun e => hk (e ▸ List.mem_cons_of_mem _ List.mem_cons_self)
    have hf : ¬FilledBy y 0 j k := by
      rintro (⟨-, e⟩ | ⟨-, e⟩)
      · exact hk0 (e ▸ hp 0)
      · exact hkj (e ▸ hp j)
    obtain ⟨hor, hot⟩ := Npx.exchange_other ((y.fillEmpty 0).fillEmpty j) hk0 hkj
    obtain ⟨hfr, hft⟩ := (fillBoth y 0 j k).2 hf
    exact ⟨hor.trans (hfr.trans (hr k)), hot.trans (hft.trans (ht k))⟩

/-- The flags of an exchange with an empty register (R222). -/
theorem fxch_empty_flags {x : Npx} {j : Idx} (h : x.empty 0 = true ∨ x.empty j = true) (n : Nat) :
    Raised x (x.fxch n j) { ie := true } true ∧ (x.fxch n j).sw.c1 = false := by
  rw [Npx.fxch_of_empty h]
  split <;> exact ⟨by simp [Raised], by simp⟩

theorem fxch_unmasked {x : Npx} {j : Idx} (h : x.empty 0 = true ∨ x.empty j = true) (hm : x.cw.im = false) (n : Nat) :
    OnlyAt x (x.fxch n j) [] := by
  rw [Npx.fxch_of_empty h, if_neg (ne_true_of_eq_false hm)]
  exact onlyAt_note x n _ (drawnCode n)

/-- FXCH of two registers that hold something (R222). -/
theorem fxch_present {x : Npx} {j : Idx} (h0 : x.empty 0 = false) (hj : x.empty j = false) (n : Nat) :
    (x.fxch n j).reg (x.phys 0) = x.st j ∧ (x.fxch n j).reg (x.phys j) = x.st 0 ∧
      (x.fxch n j).tag (x.phys 0) = x.tag (x.phys j) ∧ (x.fxch n j).tag (x.phys j) = x.tag (x.phys 0) ∧
      OnlyAt x (x.fxch n j) [x.phys 0, x.phys j] ∧ (x.fxch n j).sw.c1 = false ∧ SameFlags x (x.fxch n j) := by
  rw [Npx.fxch_of_present h0 hj]
  obtain ⟨hl, hlt⟩ := Npx.exchange_left (x.note n (Result.ok ())) (x.phys 0) (x.phys j)
  obtain ⟨hr, hrt⟩ := Npx.exchange_right (x.note n (Result.ok ())) (x.phys 0) (x.phys j)
  refine ⟨hl, hr, hlt, hrt, ⟨by simp, fun k hk => ?_⟩, by simp, by simp [SameFlags]⟩
  have hk0 : k ≠ x.phys 0 := fun e => hk (e ▸ List.mem_cons_self)
  have hkj : k ≠ x.phys j := fun e => hk (e ▸ List.mem_cons_of_mem _ List.mem_cons_self)
  exact Npx.exchange_other (x.note n (Result.ok ())) hk0 hkj

/-- FXCH leaves `fxch` of the stack of s; no pointer is looked at. -/
theorem ran_fxch (s : State) (p : List PrefixByte) (j : Idx) :
    ∃ a b c, (s.ran (.fxch p j)).npx = Npx.fxch { s.npx with fip := a, fdp := b, fop := c } s.draws j := by
  obtain ⟨a, b, c, he⟩ := s.entry_eq (.fxch p j)
  exact ⟨a, b, c, congrArg (Npx.fxch · s.draws j) he⟩

/-- Settles O30: `fxch_present` and `fxch_masked`, read from the stack of s. -/
theorem exchangeSwapsRegisters : Obligations.ExchangeSwapsRegisters := by
  unfold Obligations.ExchangeSwapsRegisters
  intro p j s ho
  obtain ⟨a, b, c, ht⟩ := ran_fxch s p j
  refine ⟨fun h0 hj => ⟨_, exec_of_operable ho, ?present⟩, fun he => ⟨_, exec_of_operable ho, ?empty⟩⟩
  case present =>
    obtain ⟨hr0, hrj, ht0, htj, honly, hc1, hflags⟩ :=
      fxch_present (x := { s.npx with fip := a, fdp := b, fop := c }) h0 hj s.draws
    rw [← ht] at hr0 hrj ht0 htj honly hc1 hflags
    have hphys (m : Idx) : (s.ran (.fxch p j)).npx.phys m = s.npx.phys m := congrArg (· + m) honly.1
    exact ⟨(congrArg _ (hphys 0)).trans hr0, (congrArg _ (hphys j)).trans hrj, ht0, htj, honly, hc1, hflags⟩
  case empty =>
    obtain ⟨hraised, hc1⟩ := fxch_empty_flags (x := { s.npx with fip := a, fdp := b, fop := c }) he s.draws
    rw [← ht] at hraised hc1
    refine ⟨hraised, hc1, fun hm => ?_, fun hm => ?_⟩
    · obtain ⟨hr0, hrj, ht0, htj, honly⟩ := fxch_masked (x := { s.npx with fip := a, fdp := b, fop := c }) he hm s.draws
      rw [← ht] at hr0 hrj ht0 htj honly
      have hphys (m : Idx) : (s.ran (.fxch p j)).npx.phys m = s.npx.phys m := congrArg (· + m) honly.1
      exact ⟨(congrArg _ (hphys 0)).trans hr0, (congrArg _ (hphys j)).trans hrj, ht0, htj, honly⟩
    · have h := fxch_unmasked (x := { s.npx with fip := a, fdp := b, fop := c }) he hm s.draws
      rwa [← ht] at h

end Sys2Proof.Machine
end

section
/-! PROOFS. Stack underflow, bit copies, FXAM, and the register frame of every instruction, from the families' ends. -/

namespace Sys2Proof.Machine

/-- FABS and FCHS of an empty register end like every computed result (R290, R291). -/
theorem Npx.setSign_eq_of_empty {x : Npx} (he : x.empty 0 = true) (n : Nat) (b : Bool) :
    x.setSign n b = (x.deliverTo n (x.phys 0) 0 (.underflow x.cw qnanIndef)).code (drawnCode n) := by
  rw [Npx.setSign, if_pos he]
  rfl

theorem ran_setSign_of_empty {s : State} {i : Instr} {p : List PrefixByte} (hi : i = .fabs p ∨ i = .fchs p)
    (he : s.npx.empty 0 = true) :
    Ends s.npx (s.ran i).npx (Delivered s.npx (s.ran i).npx 0 0) (.underflow s.npx.cw qnanIndef) := by
  have he' : (s.entry i).empty 0 = true := by rw [State.entry_empty, he]
  have hn : (s.ran i).npx =
      ((s.entry i).deliverTo s.draws ((s.entry i).phys 0) 0 (.underflow (s.entry i).cw qnanIndef)).code (drawnCode s.draws) := by
    rcases hi with rfl | rfl
    · exact Npx.setSign_eq_of_empty he' _ _
    · exact Npx.setSign_eq_of_empty he' _ _
  have e := ends_deliverTo (s.entry i) s.draws 0 0 (.underflow (s.entry i).cw qnanIndef) (drawnCode s.draws)
  rw [← hn, State.entry_cw] at e
  exact e.of_entry.mono fun v hv => by simpa [Delivered] using hv

/-- Settles O23: in every family the result is the stack underflow; a store's is written to memory, and FXCH is its own. -/
theorem stackUnderflowResponses : Obligations.StackUnderflowResponses := by
  unfold Obligations.StackUnderflowResponses
  refine ⟨fun i s f hf ho he => ?results, fun i s hp ho he => ?pairs, fun p j s ho he => ?loads,
    fun i s indef pops hf ho hm he => ?storing, fun i s q pops hf ho he => ?comparisons, fun p j s i hi ho => ?others⟩
  case results =>
    have hv : computedVacant i s.npx = true := (hasEmpty_eq hf s).symm.trans he
    have e := ran_computes (s := s) hf (declines_of_vacant hv)
    rw [computed, hv, if_pos rfl] at e
    exact ⟨_, exec_of_operable ho, e.raised, e.c1 false rfl, e.invalid_response rfl⟩
  case pairs =>
    have e := ran_pair (s := s) hp (declines_of_empty he)
    rw [pairResult, he, if_pos rfl] at e
    exact ⟨_, exec_of_operable ho, e.raised, e.c1 false rfl, e.invalid_response rfl⟩
  case loads =>
    have e := ran_push (s := s) (i := .fldSti p j) rfl
    rw [pushResult, he, if_pos rfl] at e
    exact ⟨_, exec_of_operable ho, e.raised, e.c1 false rfl, e.invalid_response rfl⟩
  case storing =>
    have e := ran_store (s := s) hf
    have hr : storeResult i indef s.npx = .underflow s.npx.cw indef := by rw [storeResult, he, if_pos rfl]
    obtain ⟨o, hoo, -, hlt⟩ := operandOf_of_storeForm hf s
    rw [hr] at e
    refine ⟨_, exec_of_operable ho, e.raised, e.c1 false rfl, fun him => ⟨?_, e.delivers indef ?_⟩,
      fun him => ⟨mem_ran_of_storeForm hf ?_, popped_zero (e.aborts ?_)⟩⟩
    · exact storedBytes_of_storeForm hf hm hoo (by rw [hr, Result.underflow, him, if_pos rfl]) hlt
    · rw [Result.underflow, him, if_pos rfl]
    · rw [hr, Result.underflow, him]; rfl
    · rw [Result.underflow, him]; rfl
  case comparisons =>
    have e := ran_compare (s := s) hf
    have hv : compareVacant q s.npx = true := by
      rw [compareVacant_eq q s i]
      rcases he with he | he <;> rw [he]
      · rfl
      · exact Bool.or_true _
    rw [compareResult, hv, if_pos rfl] at e
    have resp := e.invalid_response (cw := s.npx.cw) rfl
    refine ⟨_, exec_of_operable ho, e.raised, e.c1 false rfl, fun him => ?_, fun him => popped_zero (resp.2 him)⟩
    obtain ⟨hpop, h3, h2, h0⟩ := resp.1 him
    exact ⟨h3, h2, h0, hpop⟩
  case others =>
    rcases hi with ⟨rfl, he⟩ | ⟨hi, he⟩
    · obtain ⟨a, b, c, ht⟩ := ran_fxch s p j
      obtain ⟨hraised, hc1⟩ := fxch_empty_flags (x := { s.npx with fip := a, fdp := b, fop := c }) he s.draws
      refine ⟨_, exec_of_operable ho, ht ▸ hraised, ht ▸ hc1, fun _ hne => absurd rfl hne, fun hm => ?_⟩
      exact ht ▸ fxch_unmasked (x := { s.npx with fip := a, fdp := b, fop := c }) he hm s.draws
    · have e := ran_setSign_of_empty hi he
      have resp := e.invalid_response (cw := s.npx.cw) rfl
      exact ⟨_, exec_of_operable ho, e.raised, e.c1 false rfl, fun him _ => resp.1 him, resp.2⟩

/-! Bit copies (R203, R204, R211, R212, R215). -/

/-- Settles O25: in each family the result is the pattern, without an exception. -/
theorem copiesKeepEveryBit : Obligations.CopiesKeepEveryBit := by
  unfold Obligations.CopiesKeepEveryBit
  refine ⟨fun p m s ho hf => ?fldM80r, fun p j s ho hf he => ?fldSti, fun p m s ho hm he => ?fstpM80r,
    fun i s f hf ho he => ?copies⟩
  case fldM80r =>
    have e := ran_push (s := s) (i := .fldM80r p m) rfl
    have hr (v : Nat) : pushResult (.fldM80r p m) s.npx v = .ok (BitVec.ofNat 80 v) := if_neg (ne_true_of_eq_false hf)
    rw [hr] at e
    exact ⟨_, exec_of_operable ho, e.delivers _ rfl, e.c1 false rfl, sameFlags_of_raised e.raised⟩
  case fldSti =>
    have e := ran_push (s := s) (i := .fldSti p j) rfl
    rw [pushResult, he, if_neg Bool.false_ne_true, hf, if_neg Bool.false_ne_true] at e
    exact ⟨_, exec_of_operable ho, e.delivers _ rfl, e.c1 false rfl, sameFlags_of_raised e.raised⟩
  case fstpM80r =>
    have hf : storeForm (.fstpM80r p m) = some (0xFFFFC000000000000000, 1) := rfl
    have hr : storeResult (.fstpM80r p m) 0xFFFFC000000000000000 s.npx = .ok (s.npx.st 0).toNat :=
      if_neg (ne_true_of_eq_false he)
    have e := ran_store (s := s) hf
    have hst := storedBytes_of_storeForm hf hm (o := s.cpu.operand p m 10) rfl (congrArg Result.val hr) (s.npx.st 0).isLt
    rw [hr] at e
    exact ⟨_, exec_of_operable ho, hst, e.delivers _ rfl, e.c1 false rfl, sameFlags_of_raised e.raised⟩
  case copies =>
    have hd : declines i s.npx = false := by cases i <;> cases hf <;> rfl
    have hc : computed i s.draws (operandBytes s i) s.npx = .ok (s.npx.st 0) := by
      cases i <;> cases hf <;> exact if_neg (ne_true_of_eq_false he)
    have e := ran_computes (s := s) (.inr hf) hd
    rw [hc] at e
    exact ⟨_, exec_of_operable ho, e.delivers _ rfl, e.c1 false rfl, sameFlags_of_raised e.raised⟩

/-! FXAM (R246). -/

theorem fxam_code (x : Npx) :
    (x.fxam.sw.c3, x.fxam.sw.c2, x.fxam.sw.c0) =
      if x.tag x.sw.top = .empty then (true, false, true)
      else match classOf (x.st 0) with
        | .unsupported => (false, false, false)
        | .snan | .qnan => (false, false, true)
        | .normal => (false, true, false)
        | .infinity => (false, true, true)
        | .zero => (true, false, false)
        | .denormal => (true, true, false) := by
  have hempty : x.empty 0 = true ↔ x.tag x.sw.top = .empty := by simp [Npx.empty]
  unfold Npx.fxam
  by_cases h : x.tag x.sw.top = .empty
  · rw [if_pos h, hempty.2 h]
    rfl
  · rw [if_neg h, Bool.eq_false_iff.2 fun he => h (hempty.1 he)]
    cases classOf (x.st 0) <;> rfl

/-- Settles O33: `fxam` writes the condition code alone, by the class of the pattern or the tag. -/
theorem examineReportsTheClass : Obligations.ExamineReportsTheClass := by
  unfold Obligations.ExamineReportsTheClass
  intro p s ho
  obtain ⟨a, b, c, he⟩ := s.entry_eq (.fxam p)
  have hn : (s.ran (.fxam p)).npx = Npx.fxam { s.npx with fip := a, fdp := b, fop := c } := congrArg Npx.fxam he
  refine ⟨_, exec_of_operable ho, ?_, ?_, ?_, ?_⟩
  · rw [hn]; rfl
  · rw [hn]
    exact fxam_code _
  · rw [hn]
    exact popped_zero ⟨rfl, fun _ _ => ⟨rfl, rfl⟩⟩
  · rw [hn]
    exact ⟨rfl, rfl, rfl, rfl, rfl, rfl, rfl⟩

/-! The register frame (R22, R29). -/

/-- y is x with the listed registers possibly changed, and TOP as before or moved by d. -/
def Within (x y : Npx) (ks : List Idx) (d : Idx) : Prop :=
  (∀ k, k ∉ ks → y.reg k = x.reg k ∧ y.tag k = x.tag k) ∧ (y.sw.top = x.sw.top ∨ y.sw.top = x.sw.top + d)

theorem within_of_onlyAt {x y : Npx} {js : List Idx} (h : OnlyAt x y js) {ks : List Idx} (hs : ∀ k ∈ js, k ∈ ks)
    (d : Idx) : Within x y ks d := ⟨fun k hk => h.2 k fun hj => hk (hs k hj), .inl h.1⟩

/-- A register outside a list of the n registers from TOP on is not among them. -/
theorem le_sub_toNat_of_not_mem {top k : Idx} {n : Nat} {ks : List Idx} (hp : ∀ j, j < n → top + BitVec.ofNat 3 j ∈ ks)
    (hk : k ∉ ks) : ¬(k - top).toNat < n := by
  intro h
  have e : top + BitVec.ofNat 3 (k - top).toNat = k := by
    rw [BitVec.ofNat_toNat, BitVec.setWidth_eq]
    bv_omega
  exact hk (e ▸ hp _ h)

theorem within_of_popped {x y : Npx} {n : Nat} {ks : List Idx} (h : Popped n x y)
    (hp : ∀ j, j < n → x.sw.top + BitVec.ofNat 3 j ∈ ks) : Within x y ks (BitVec.ofNat 3 n) := by
  obtain ⟨htop, hregs, htag⟩ := h
  refine ⟨fun k hk => ⟨by rw [Npx.reg, Npx.reg]; simp only [hregs], ?_⟩, .inr htop⟩
  rw [htag, if_neg (le_sub_toNat_of_not_mem hp hk)]

theorem within_of_delivered {x y : Npx} {dest : Idx} {n : Nat} {v : Ext} {ks : List Idx} (h : Delivered x y dest n v)
    (hd : x.phys dest ∈ ks) (hp : ∀ j, j < n → x.sw.top + BitVec.ofNat 3 j ∈ ks) : Within x y ks (BitVec.ofNat 3 n) := by
  obtain ⟨-, htop, hreg, htag⟩ := h
  refine ⟨fun k hk => ?_, .inr htop⟩
  have hne : k ≠ x.phys dest := fun e => hk (e ▸ hd)
  exact ⟨hreg k hne, by rw [htag, if_neg (le_sub_toNat_of_not_mem hp hk), if_neg hne]⟩

theorem Ends.within {α : Type} {x y : Npx} {done : α → Prop} {r : Result α} {ks : List Idx} {d : Idx}
    (h : Ends x y done r) (hd : ∀ v, done v → Within x y ks d) : Within x y ks d := by
  cases hv : r.val with
  | none => exact within_of_onlyAt (h.aborts hv) nofun d
  | some v => exact hd v (h.delivers v hv)

/-- FXCH touches the two registers alone, whether they are empty or not (R222). -/
theorem onlyAt_fxch (x : Npx) (n : Nat) (j : Idx) : OnlyAt x (x.fxch n j) [x.phys 0, x.phys j] := by
  by_cases h : x.empty 0 = true ∨ x.empty j = true
  · cases hm : x.cw.im with
    | true => exact (fxch_masked h hm n).2.2.2.2
    | false => exact (fxch_unmasked h hm n).of_nil _
  · obtain ⟨h0, hj⟩ := not_or.1 h
    exact (fxch_present (Bool.eq_false_iff.2 h0) (Bool.eq_false_iff.2 hj) n).2.2.2.2.1

/-! The registers each family may touch. -/

theorem touched_computes {i : Instr} {f : ResultForm} (h : computes i = some f ∨ copies i = some f) (x : Npx) :
    x.phys f.dest ∈ touched x i ∧ (∀ j, j < f.pops → x.sw.top + BitVec.ofNat 3 j ∈ touched x i) ∧
      topStep i = some (BitVec.ofNat 3 f.pops) := by
  cases i <;> rcases h with h | h <;> cases h <;>
    exact ⟨by simp [touched, Npx.phys], by simp [touched], rfl⟩

theorem touched_compare {i : Instr} {q : Source} {pops : Nat} (h : compareForm i = some (q, pops)) (x : Npx) :
    (∀ j, j < pops → x.sw.top + BitVec.ofNat 3 j ∈ touched x i) ∧ topStep i = some (BitVec.ofNat 3 pops) := by
  cases i <;> cases h <;> refine ⟨fun j hj => ?_, rfl⟩ <;> interval_cases j <;> simp [touched]

theorem touched_store {i : Instr} {indef pops : Nat} (h : storeForm i = some (indef, pops)) (x : Npx) :
    (∀ j, j < pops → x.sw.top + BitVec.ofNat 3 j ∈ touched x i) ∧ topStep i = some (BitVec.ofNat 3 pops) := by
  cases i <;> cases h <;> exact ⟨by simp [touched], rfl⟩

theorem touched_push {i : Instr} (h : pushesOne i = true) (x : Npx) :
    x.sw.top - 1 ∈ touched x i ∧ topStep i = some 7 := by
  cases i <;> cases h <;> exact ⟨List.mem_singleton_self _, rfl⟩

theorem touched_pair {i : Instr} (h : makesPair i = true) (x : Npx) :
    touched x i = [x.sw.top, x.sw.top - 1] ∧ topStep i = some 7 := by
  cases i <;> cases h <;> exact ⟨rfl, rfl⟩

/-! Every instruction. -/

/-- The instructions of no family: FABS, FCHS, FXCH, FXAM and the control instructions. -/
def standsAlone : Instr → Bool
  | .fabs _ | .fchs _ | .fxch _ _ | .fxam _ | .fincstp _ | .fdecstp _ | .ffree _ _ | .fnop _ | .wait _ | .feni _ | .fdisi _
  | .fsetpm _ | .fldcw _ _ | .fstcw _ _ | .fstswM16 _ _ | .fstswAx _ | .fclex _ | .fstenv _ _ | .fldenv _ _ | .finit _
  | .fsave _ _ | .frstor _ _ => true
  | _ => false

/-- Every instruction is in a family or stands alone. -/
theorem family_cases (i : Instr) :
    pushesOne i = true ∨ makesPair i = true ∨ (∃ f, computes i = some f ∨ copies i = some f) ∨
      (∃ q pops, compareForm i = some (q, pops)) ∨ (∃ indef pops, storeForm i = some (indef, pops)) ∨
      standsAlone i = true := by
  cases hp : pushesOne i with
  | true => exact .inl rfl
  | false =>
    cases hm : makesPair i with
    | true => exact .inr (.inl rfl)
    | false =>
      refine .inr (.inr ?_)
      cases ha : standsAlone i with
      | true => exact .inr (.inr (.inr rfl))
      | false =>
        cases hc : computes i with
        | some f => exact .inl ⟨f, .inl rfl⟩
        | none =>
          cases hq : compareForm i with
          | some q => exact .inr (.inl ⟨_, _, rfl⟩)
          | none =>
            cases hs : storeForm i with
            | some q => exact .inr (.inr (.inl ⟨_, _, rfl⟩))
            | none =>
              cases i with
              | fstSti p j => exact .inl ⟨_, .inr rfl⟩
              | fstpSti p j => exact .inl ⟨_, .inr rfl⟩
              | _ => cases hp <;> cases hm <;> cases ha <;> cases hc <;> cases hq <;> cases hs

/-- A declined reduction changes the condition code alone (R309). -/
theorem ran_declines {s : State} {i : Instr} (h : declines i s.npx = true) :
    OnlyAt s.npx (s.ran i).npx [] ∧ SameFlags s.npx (s.ran i).npx ∧ (s.ran i).npx.sw.c2 = true := by
  obtain ⟨a, b, c, he⟩ := s.entry_eq i
  have hd : declines i (s.entry i) = true := by rw [he]; exact h
  rw [State.ran_npx, State.npxAfter, effect_declines hd, he]
  exact ⟨⟨rfl, fun _ _ => ⟨rfl, rfl⟩⟩, ⟨rfl, rfl, rfl, rfl, rfl, rfl, rfl⟩, rfl⟩

theorem within_of_pushed {x y : Npx} {v : Ext} {ks : List Idx} (h : Pushed x y v) (hk : x.sw.top - 1 ∈ ks) :
    Within x y ks 7 := by
  obtain ⟨htop, -, -, hother⟩ := h
  exact ⟨fun k hk' => hother k fun e => hk' (e ▸ hk), .inr (htop.trans (by bv_omega))⟩

theorem within_of_deliveredPair {x y : Npx} {a b : Ext} (h : DeliveredPair x y a b) :
    Within x y [x.sw.top, x.sw.top - 1] 7 := by
  obtain ⟨htop, -, -, -, -, hother⟩ := h
  refine ⟨fun k hk => hother k (fun e => hk (e ▸ List.mem_cons_self)) fun e => hk (e ▸ List.mem_cons_of_mem _ List.mem_cons_self),
    .inr (htop.trans (by bv_omega))⟩

/-- The instructions that stand alone touch what their rules name. -/
theorem within_of_standsAlone {i : Instr} (h : standsAlone i = true) (s : State) {d : Idx} (hd : topStep i = some d) :
    Within s.npx (s.ran i).npx (touched s.npx i) d := by
  obtain ⟨a, b, c, he⟩ := s.entry_eq i
  rw [State.ran_npx, State.npxAfter, he]
  have same : Within s.npx { s.npx with fip := a, fdp := b, fop := c } [] 0 :=
    ⟨fun _ _ => ⟨rfl, rfl⟩, .inl rfl⟩
  cases i with
  | fabs p | fchs p =>
    cases hd
    have frame (b' : Bool) := onlyAt_setSign { s.npx with fip := a, fdp := b, fop := c } s.draws b'
    exact within_of_onlyAt (js := [s.npx.sw.top]) (frame _) (fun _ hk => hk) 0
  | fxch p j =>
    cases hd
    refine within_of_onlyAt (js := [s.npx.phys 0, s.npx.phys j])
      (onlyAt_fxch { s.npx with fip := a, fdp := b, fop := c } s.draws j) (fun k hk => ?_) 0
    rcases List.mem_cons.1 hk with rfl | hk
    · exact (s.npx.phys_zero : s.npx.phys 0 = _) ▸ List.mem_cons_of_mem _ List.mem_cons_self
    · exact List.mem_cons.2 (.inl (List.mem_singleton.1 hk))
  | fincstp p | fdecstp p => cases hd; exact ⟨fun _ _ => ⟨rfl, rfl⟩, .inr rfl⟩
  | ffree p j =>
    cases hd
    refine ⟨fun k hk => ⟨rfl, ?_⟩, .inl rfl⟩
    exact (Npx.setTag_tag _ _ k .empty).trans (if_neg fun e => hk (List.mem_singleton.2 e.symm))
  | finit p | fsave p m | fldenv p m | frstor p m => cases hd
  | fxam p | fnop p | wait p | feni p | fdisi p | fsetpm p | fldcw p m | fstcw p m | fstswM16 p m | fstswAx p | fclex p
    | fstenv p m => cases hd; exact same
  | _ => cases h

/-- Those that load or reset every register name every register, and no step of TOP. -/
theorem touched_of_topStep_none {i : Instr} (h : topStep i = none) (x : Npx) (k : Idx) : k ∈ touched x i := by
  have all : k ∈ ([0, 1, 2, 3, 4, 5, 6, 7] : List Idx) := by induction k using idx_cases <;> decide
  cases i <;> cases h <;> exact all

/-- Settles O12: each family's end stays within its registers, by `Ends.within`. -/
theorem registerFrame : Obligations.RegisterFrame := by
  unfold Obligations.RegisterFrame
  intro i s t h _ ht
  obtain rfl := eq_ran_of_next h ht
  have within {d : Idx} (hd : topStep i = some d) : Within s.npx (s.ran i).npx (touched s.npx i) d := by
    have declined (hx : declines i s.npx = true) : Within s.npx (s.ran i).npx (touched s.npx i) d :=
      within_of_onlyAt (ran_declines hx).1 nofun d
    rcases family_cases i with hf | hf | ⟨f, hf⟩ | ⟨q, pops, hf⟩ | ⟨indef, pops, hf⟩ | hf
    · obtain ⟨hk, hd'⟩ := touched_push hf s.npx
      cases hd'.symm.trans hd
      exact (ran_push hf).within fun v hv => within_of_pushed hv hk
    · obtain ⟨hk, hd'⟩ := touched_pair hf s.npx
      cases hd'.symm.trans hd
      cases hx : declines i s.npx with
      | true => exact declined hx
      | false => exact (ran_pair hf hx).within fun v hv => hk ▸ within_of_deliveredPair hv
    · obtain ⟨hk, hp, hd'⟩ := touched_computes hf s.npx
      cases hd'.symm.trans hd
      cases hx : declines i s.npx with
      | true => exact declined hx
      | false => exact (ran_computes hf hx).within fun v hv => within_of_delivered hv hk hp
    · obtain ⟨hp, hd'⟩ := touched_compare hf s.npx
      cases hd'.symm.trans hd
      exact (ran_compare hf).within fun c hc => within_of_popped hc.1 hp
    · obtain ⟨hp, hd'⟩ := touched_store hf s.npx
      cases hd'.symm.trans hd
      exact (ran_store hf).within fun v hv => within_of_popped hv hp
    · exact within_of_standsAlone hf s hd
  refine ⟨fun k hk => ?_, fun d hd => (within hd).2⟩
  cases hd : topStep i with
  | none => exact absurd (touched_of_topStep_none hd s.npx k) hk
  | some d => exact (within hd).1 k hk

end Sys2Proof.Machine
end

section
/-! PROOFS. Processor control: FFREE and the no-operations, the control and status words, and the environment and state
images of spec/10_state.md R48 to R56 (spec/46_processor_control.md). -/

namespace Sys2Proof.Machine

/-! FFREE and the no-operations (R334 to R337). -/

/-- Settles O58: each effect is one update of the NPX, or none. -/
theorem freeAndNoOperations : Obligations.FreeAndNoOperations := by
  unfold Obligations.FreeAndNoOperations
  refine ⟨fun p j s ho => ⟨_, exec_of_operable ho, ?_⟩, fun p s ho => ⟨_, exec_of_operable ho, ?_⟩,
    fun p s i hi ho => ⟨_, exec_of_operable ho, ?_⟩, fun s p => ⟨fun hts => ?_, fun hts hes => ?_, fun hts hes => ?_⟩⟩
  · have hn : (s.ran (.ffree p j)).npx =
        ((s.entry (.ffree p j)).setTag ((s.entry (.ffree p j)).phys j) .empty).undefAll s.draws := rfl
    rw [hn]
    refine ⟨by simp, by simp, fun k => ?_, by simp [SameFlags]⟩
    simp [Npx.phys, eq_comm (a := k)]
  · have hn : (s.ran (.fnop p)).npx = (s.entry (.fnop p)).undefAll s.draws := rfl
    rw [hn]
    exact ⟨popped_zero ⟨by simp, fun k _ => by simp⟩, by simp [SameFlags]⟩
  · rcases hi with rfl | rfl | rfl <;> exact ⟨rfl, rfl, rfl⟩
  · exact if_pos hts
  · exact (if_neg (ne_true_of_eq_false hts)).trans (if_pos hes)
  · exact (if_neg (ne_true_of_eq_false hts)).trans (if_neg (ne_true_of_eq_false hes))

/-! Transfers of the words (R322 to R326). -/

/-- A status word is its sixteen bits (R27). -/
@[simp] theorem StatusWord.ofBits_toBits (w : StatusWord) : StatusWord.ofBits w.toBits = w := by
  have htop : w.toBits.extractLsb' 11 3 = w.top := by
    refine BitVec.eq_of_getLsbD_eq fun i hi => ?_
    simp only [StatusWord.toBits, BitVec.getLsbD_append, BitVec.getLsbD_extractLsb']
    interval_cases i <;> simp
  rw [StatusWord.ofBits, htop]
  simp only [StatusWord.toBits, BitVec.getLsbD_append]
  simp

/-- Whatever the reserved bits are (R41), the control word is what the others say. -/
@[simp] theorem ControlWord.ofBits_toBits (w : ControlWord) (r : BitVec 5) : ControlWord.ofBits (w.toBits r) = w := by
  have hpc : (w.toBits r).extractLsb' 8 2 = w.pc := by
    refine BitVec.eq_of_getLsbD_eq fun i hi => ?_
    simp only [ControlWord.toBits, BitVec.getLsbD_append, BitVec.getLsbD_extractLsb']
    interval_cases i <;> simp
  have hrc : (w.toBits r).extractLsb' 10 2 = w.rc := by
    refine BitVec.eq_of_getLsbD_eq fun i hi => ?_
    simp only [ControlWord.toBits, BitVec.getLsbD_append, BitVec.getLsbD_extractLsb']
    interval_cases i <;> simp
  rw [ControlWord.ofBits, hpc, hrc]
  simp only [ControlWord.toBits, BitVec.getLsbD_append]
  simp

/-- FSTSW, FSTCW and FNOP leave the stack and the flags. -/
theorem undefAll_frame (x : Npx) (n : Nat) : Popped 0 x (x.undefAll n) ∧ SameFlags x (x.undefAll n) :=
  ⟨popped_zero ⟨by simp, fun k _ => by simp⟩, by simp [SameFlags]⟩

theorem frame_of_entry {s : State} {i : Instr} {y : Npx} (h : Popped 0 (s.entry i) y ∧ SameFlags (s.entry i) y) :
    Popped 0 s.npx y ∧ SameFlags s.npx y := by
  simpa [Popped, SameFlags] using h

/-- Settles O53. -/
theorem statusAndControlTransfers : Obligations.StatusAndControlTransfers := by
  unfold Obligations.StatusAndControlTransfers
  refine ⟨fun p m s ho hm => ⟨_, exec_of_operable ho, ?_, frame_of_entry (undefAll_frame _ _)⟩,
    fun p s ho => ⟨_, exec_of_operable ho, ?_, frame_of_entry (undefAll_frame _ _)⟩,
    fun p m s ho hm => ⟨_, exec_of_operable ho, ?_, frame_of_entry (undefAll_frame _ _)⟩,
    fun p m s ho => ⟨_, exec_of_operable ho, ?_⟩, fun p s ho => ⟨_, exec_of_operable ho, ?_⟩⟩
  case refine_1 =>
    have hs : s.stored (.fstswM16 p m) = some s.npx.sw.toBits.toNat := by rw [← s.entry_sw (.fstswM16 p m)]; rfl
    rw [storedBytes_ran hm hs rfl (by simp [Cpu.operand])]
    exact Nat.mod_eq_of_lt s.npx.sw.toBits.isLt
  case refine_2 => rw [State.ran_cpu]; rfl
  case refine_3 =>
    have hs : s.stored (.fstcw p m) = some (s.npx.cwImage s.draws).toNat := by
      rw [Npx.cwImage, ← s.entry_cw (.fstcw p m)]; rfl
    rw [storedBytes_ran hm hs rfl (by simp [Cpu.operand])]
    have hlt := Nat.mod_eq_of_lt (s.npx.cwImage s.draws).isLt
    refine (congrArg (fun v => ControlWord.ofBits (BitVec.ofNat 16 v)) hlt).trans ?_
    rw [BitVec.ofNat_toNat, BitVec.setWidth_eq, Npx.cwImage, ControlWord.ofBits_toBits]
  case refine_4 =>
    have hn : (s.ran (.fldcw p m)).npx = (s.entry (.fldcw p m)).loadCw s.draws (operandBytes s (.fldcw p m)) := rfl
    rw [hn]
    simp [Npx.loadCw, StatusWord.refresh, Popped, SameFlags, Npx.tag]
  case refine_5 =>
    have hn : (s.ran (.fclex p)).npx = ((s.entry (.fclex p)).withSw (s.entry (.fclex p)).sw.clearExceptions).undefAll s.draws := rfl
    rw [hn]
    have h0 (w : StatusWord) (n : Nat) : (w.clearExceptions.undefAll n).toBits.extractLsb' 0 8 = 0 := by
      refine BitVec.eq_of_getLsbD_eq fun i hi => ?_
      simp only [StatusWord.toBits, BitVec.getLsbD_append, BitVec.getLsbD_extractLsb']
      interval_cases i <;> simp [StatusWord.clearExceptions]
    exact ⟨h0 _ _, by simp [StatusWord.clearExceptions], by simp, popped_zero ⟨by simp [StatusWord.clearExceptions], fun k _ => by simp⟩⟩

/-! The environment image (R48 to R53). -/

/-- Fields below the k-th are dropped by a shift over them. -/
theorem packFields_div (w k : Nat) (fs : List Nat) : packFields w fs / 2 ^ (w * k) = packFields w (fs.drop k) := by
  induction k generalizing fs with
  | zero => simp
  | succ k ih =>
    cases fs with
    | nil => simp [packFields]
    | cons f fs =>
      rw [List.drop_succ_cons, ← ih, Nat.mul_succ, Nat.add_comm, Nat.pow_add, ← Nat.div_div_eq_div_mul, packFields,
        Nat.add_mul_div_left _ _ (by positivity), Nat.div_eq_of_lt (Nat.mod_lt _ (by positivity)), Nat.zero_add]

theorem packFields_lt (w : Nat) (fs : List Nat) : packFields w fs < 2 ^ (w * fs.length) := by
  induction fs with
  | nil => simp [packFields]
  | cons f fs ih =>
    rw [packFields, List.length_cons, Nat.mul_succ, Nat.add_comm (w * fs.length), Nat.pow_add]
    have hf : f % 2 ^ w < 2 ^ w := Nat.mod_lt _ (by positivity)
    nlinarith [Nat.mul_le_mul_left (2 ^ w) ih]

/-- Bits d to d + l of field k of a list of fields w bits wide. -/
theorem packFields_bits {w k d l n : Nat} {fs : List Nat} {b : BitVec n} (hb : fs[k]? = some b.toNat) (hd : d + l ≤ w)
    {pos : Nat} (hp : pos = w * k + d) : BitVec.ofNat l (packFields w fs / 2 ^ pos) = b.extractLsb' d l := by
  obtain ⟨hk, hb⟩ := List.getElem?_eq_some_iff.1 hb
  rw [hp, Nat.pow_add, ← Nat.div_div_eq_div_mul, packFields_div, List.drop_eq_getElem_cons hk, hb, packFields]
  refine BitVec.eq_of_toNat_eq ?_
  rw [BitVec.toNat_ofNat, BitVec.extractLsb'_toNat, Nat.shiftRight_eq_div_pow]
  obtain ⟨e, rfl⟩ := Nat.exists_eq_add_of_le hd
  rw [Nat.add_assoc d l e, Nat.pow_add 2 d, Nat.pow_add 2 l, Nat.mul_assoc, Nat.add_mul_div_left _ _ (by positivity),
    Nat.mul_assoc, Nat.add_mul_mod_self_left, Nat.mod_mul_right_div_self, Nat.mod_mul_right_mod]

/-- A field of sixteen bits under reserved ones (R49). -/
theorem extract_withReserved (r low : Word) : (r ++ low : BitVec 32).extractLsb' 0 16 = low := by
  refine BitVec.eq_of_getLsbD_eq fun i hi => ?_
  simp only [BitVec.getLsbD_append, BitVec.getLsbD_extractLsb']
  interval_cases i <;> rfl

/-- Two halves next to each other are a doubleword. -/
theorem extract_halves (d : DWord) : (d.extractLsb' 16 16 ++ d.extractLsb' 0 16 : BitVec 32) = d := by
  refine BitVec.eq_of_getLsbD_eq fun i hi => ?_
  simp only [BitVec.getLsbD_append, BitVec.getLsbD_extractLsb']
  interval_cases i <;> rfl

theorem extract_self {w : Nat} (b : BitVec w) : b.extractLsb' 0 w = b := by simp

/-- FOP under five zeros, over the selector (R50). -/
theorem extract_opcode (z : BitVec 5) (fop : BitVec 11) (sel : Word) :
    (z ++ fop ++ sel : BitVec 32).extractLsb' 16 16 = z ++ fop ∧ (z ++ fop ++ sel : BitVec 32).extractLsb' 0 16 = sel := by
  refine ⟨BitVec.eq_of_getLsbD_eq fun i hi => ?_, BitVec.eq_of_getLsbD_eq fun i hi => ?_⟩
  · simp only [BitVec.getLsbD_append, BitVec.getLsbD_extractLsb']
    interval_cases i <;> rfl
  · simp only [BitVec.getLsbD_append, BitVec.getLsbD_extractLsb']
    interval_cases i <;> rfl

theorem extract_fop (z : BitVec 5) (fop : BitVec 11) : (z ++ fop : Word).extractLsb' 0 11 = fop := by
  refine BitVec.eq_of_getLsbD_eq fun i hi => ?_
  simp only [BitVec.getLsbD_append, BitVec.getLsbD_extractLsb']
  interval_cases i <;> rfl

theorem stored_fstenv (p : List PrefixByte) (m : MemOperand) (s : State) :
    s.stored (.fstenv p m) = some (s.npx.envImage (s.format (.fstenv p m)) s.draws) := rfl

theorem envImage_lt (x : Npx) (fmt : ImageFormat) (n : Nat) : x.envImage fmt n < 2 ^ (8 * envSize fmt) := by
  cases fmt with
  | protected32 | real32 => exact packFields_lt 32 _
  | protected16 | real16 => exact packFields_lt 16 _

theorem storedBytes_fstenv {p : List PrefixByte} {m : MemOperand} {s : State} (hm : s.mem.wf = true) :
    storedBytes s (s.ran (.fstenv p m)) (.fstenv p m) = s.npx.envImage (s.format (.fstenv p m)) s.draws := by
  have hb : envSize (s.format (.fstenv p m)) ≤ 2 ^ 16 := by cases s.format (.fstenv p m) <;> simp [envSize]
  rw [storedBytes_ran hm (stored_fstenv p m s) rfl hb]
  exact Nat.mod_eq_of_lt (envImage_lt _ _ _)

/-- The first three fields of an image (R49). -/
theorem envImage_words32 (x : Npx) (n : Nat) {fmt : ImageFormat} (hf : fmt = .protected32 ∨ fmt = .real32) {bits : Nat → BitVec 16}
    (hbits : ∀ byte, bits byte = BitVec.ofNat 16 (x.envImage fmt n / 2 ^ (8 * byte))) :
    ControlWord.ofBits (bits 0) = x.cw ∧ bits 4 = x.sw.toBits ∧ bits 8 = tagWord x.tags := by
  simp only [hbits]
  rcases hf with rfl | rfl
  all_goals
    unfold Npx.envImage withReserved
    refine ⟨?_, ?_, ?_⟩
    · rw [packFields_bits (k := 0) (d := 0) rfl (by norm_num) rfl, extract_withReserved, Npx.cwImage,
        ControlWord.ofBits_toBits]
    · rw [packFields_bits (k := 1) (d := 0) rfl (by norm_num) rfl, extract_withReserved]
    · rw [packFields_bits (k := 2) (d := 0) rfl (by norm_num) rfl, extract_withReserved]

theorem envImage_words16 (x : Npx) (n : Nat) {fmt : ImageFormat} (hf : fmt = .protected16 ∨ fmt = .real16) {bits : Nat → BitVec 16}
    (hbits : ∀ byte, bits byte = BitVec.ofNat 16 (x.envImage fmt n / 2 ^ (8 * byte))) :
    ControlWord.ofBits (bits 0) = x.cw ∧ bits 2 = x.sw.toBits ∧ bits 4 = tagWord x.tags := by
  simp only [hbits]
  rcases hf with rfl | rfl
  all_goals
    unfold Npx.envImage
    refine ⟨?_, ?_, ?_⟩
    · rw [packFields_bits (k := 0) (d := 0) rfl (by norm_num) rfl, extract_self, Npx.cwImage, ControlWord.ofBits_toBits]
    · rw [packFields_bits (k := 1) (d := 0) rfl (by norm_num) rfl, extract_self]
    · rw [packFields_bits (k := 2) (d := 0) rfl (by norm_num) rfl, extract_self]

theorem envImage_protected32 (x : Npx) (n : Nat) {bits : Nat → BitVec 16}
    (hbits : ∀ byte, bits byte = BitVec.ofNat 16 (x.envImage .protected32 n / 2 ^ (8 * byte))) :
    (bits 14 ++ bits 12 : BitVec 32) = x.fip.off ∧ bits 16 = x.fip.sel ∧ bits 18 = (0 : BitVec 5) ++ x.fop ∧
      (bits 22 ++ bits 20 : BitVec 32) = x.fdp.off ∧ bits 24 = x.fdp.sel := by
  simp only [hbits, Npx.envImage, withReserved]
  obtain ⟨hop, hsel⟩ := extract_opcode 0 x.fop x.fip.sel
  refine ⟨?_, ?_, ?_, ?_, ?_⟩
  · rw [packFields_bits (k := 3) (d := 16) rfl (by norm_num) rfl, packFields_bits (k := 3) (d := 0) rfl (by norm_num) rfl,
      extract_halves]
  · rw [packFields_bits (k := 4) (d := 0) rfl (by norm_num) rfl, hsel]
  · rw [packFields_bits (k := 4) (d := 16) rfl (by norm_num) rfl, hop]
  · rw [packFields_bits (k := 5) (d := 16) rfl (by norm_num) rfl, packFields_bits (k := 5) (d := 0) rfl (by norm_num) rfl,
      extract_halves]
  · rw [packFields_bits (k := 6) (d := 0) rfl (by norm_num) rfl, extract_withReserved]

theorem envImage_protected16 (x : Npx) (n : Nat) {bits : Nat → BitVec 16}
    (hbits : ∀ byte, bits byte = BitVec.ofNat 16 (x.envImage .protected16 n / 2 ^ (8 * byte))) :
    bits 6 = x.fip.off.extractLsb' 0 16 ∧ bits 8 = x.fip.sel ∧ bits 10 = x.fdp.off.extractLsb' 0 16 ∧
      bits 12 = x.fdp.sel := by
  simp only [hbits, Npx.envImage]
  refine ⟨?_, ?_, ?_, ?_⟩
  · rw [packFields_bits (k := 3) (d := 0) rfl (by norm_num) rfl, extract_self]
  · rw [packFields_bits (k := 4) (d := 0) rfl (by norm_num) rfl, extract_self]
  · rw [packFields_bits (k := 5) (d := 0) rfl (by norm_num) rfl, extract_self]
  · rw [packFields_bits (k := 6) (d := 0) rfl (by norm_num) rfl, extract_self]

theorem envImage_real32 (x : Npx) (n : Nat) {bits : Nat → BitVec 16}
    (hbits : ∀ byte, bits byte = BitVec.ofNat 16 (x.envImage .real32 n / 2 ^ (8 * byte))) :
    bits 12 = x.fip.lin.extractLsb' 0 16 ∧
      (bits 18 ++ bits 16 : BitVec 32) =
        (0 : BitVec 4) ++ x.fip.lin.extractLsb' 16 16 ++ (0 : BitVec 1) ++ x.fop ∧
      bits 20 = x.fdp.lin.extractLsb' 0 16 ∧
      (bits 26 ++ bits 24 : BitVec 32) = (0 : BitVec 4) ++ x.fdp.lin.extractLsb' 16 16 ++ (0 : BitVec 12) := by
  simp only [hbits, Npx.envImage, withReserved]
  refine ⟨?_, ?_, ?_, ?_⟩
  · rw [packFields_bits (k := 3) (d := 0) rfl (by norm_num) rfl, extract_withReserved]
  · rw [packFields_bits (k := 4) (d := 16) rfl (by norm_num) rfl, packFields_bits (k := 4) (d := 0) rfl (by norm_num) rfl,
      extract_halves]
  · rw [packFields_bits (k := 5) (d := 0) rfl (by norm_num) rfl, extract_withReserved]
  · rw [packFields_bits (k := 6) (d := 16) rfl (by norm_num) rfl, packFields_bits (k := 6) (d := 0) rfl (by norm_num) rfl,
      extract_halves]

theorem envImage_real16 (x : Npx) (n : Nat) {bits : Nat → BitVec 16}
    (hbits : ∀ byte, bits byte = BitVec.ofNat 16 (x.envImage .real16 n / 2 ^ (8 * byte))) :
    bits 6 = x.fip.lin.extractLsb' 0 16 ∧ bits 8 = x.fip.lin.extractLsb' 16 4 ++ (0 : BitVec 1) ++ x.fop ∧
      bits 10 = x.fdp.lin.extractLsb' 0 16 ∧ bits 12 = x.fdp.lin.extractLsb' 16 4 ++ (0 : BitVec 12) := by
  simp only [hbits, Npx.envImage]
  refine ⟨?_, ?_, ?_, ?_⟩
  · rw [packFields_bits (k := 3) (d := 0) rfl (by norm_num) rfl, extract_self]
  · rw [packFields_bits (k := 4) (d := 0) rfl (by norm_num) rfl, extract_self]
  · rw [packFields_bits (k := 5) (d := 0) rfl (by norm_num) rfl, extract_self]
  · rw [packFields_bits (k := 6) (d := 0) rfl (by norm_num) rfl, extract_self]

/-! The format (R48). -/

theorem imageFormat_protected (wide : Bool) :
    imageFormat .protectedMode wide = if wide then .protected32 else .protected16 := rfl

theorem imageFormat_real {mode : Mode} (h : mode ≠ .protectedMode) (wide : Bool) :
    imageFormat mode wide = if wide then .real32 else .real16 := by
  cases mode with
  | protectedMode => exact absurd rfl h
  | realMode | virtual86 => rfl

theorem imageFormat_wide (mode : Mode) : imageFormat mode true = .protected32 ∨ imageFormat mode true = .real32 := by
  cases mode <;> simp [imageFormat]

theorem imageFormat_narrow (mode : Mode) : imageFormat mode false = .protected16 ∨ imageFormat mode false = .real16 := by
  cases mode <;> simp [imageFormat]

/-- Settles O54: the image's fields, one lemma for each format. -/
theorem storeEnvironmentImage : Obligations.StoreEnvironmentImage := by
  unfold Obligations.StoreEnvironmentImage
  intro p m s ho hm
  have hn : (s.ran (.fstenv p m)).npx = s.npx.maskAll.undefAll s.draws := rfl
  have hfmt : s.format (.fstenv p m) = imageFormat s.cpu.mode (operandSize32 s.cpu.opSize32 p) := rfl
  refine ⟨_, exec_of_operable ho, ?_, by rw [hn]; rfl, by rw [hn]; rfl, by rw [hn]; rfl, ?_, ?_⟩
  · extract_lets img wide bits
    have hbits (byte : Nat) : bits byte = BitVec.ofNat 16
        (s.npx.envImage (imageFormat s.cpu.mode (operandSize32 s.cpu.opSize32 p)) s.draws / 2 ^ (8 * byte)) := by
      rw [← hfmt, ← storedBytes_fstenv hm]
    clear_value bits
    refine ⟨fun hw => ?_, fun hw => ?_, fun hw hp => ?_, fun hw hp => ?_, fun hw hp => ?_, fun hw hp => ?_⟩
    · rw [hw] at hbits
      exact envImage_words32 s.npx s.draws (imageFormat_wide _) hbits
    · rw [Bool.eq_false_iff.2 hw] at hbits
      exact envImage_words16 s.npx s.draws (imageFormat_narrow _) hbits
    · rw [hw, hp] at hbits
      exact envImage_protected32 s.npx s.draws hbits
    · rw [Bool.eq_false_iff.2 hw, hp] at hbits
      exact envImage_protected16 s.npx s.draws hbits
    · rw [hw, imageFormat_real hp] at hbits
      exact envImage_real32 s.npx s.draws hbits
    · rw [Bool.eq_false_iff.2 hw, imageFormat_real hp] at hbits
      exact envImage_real16 s.npx s.draws hbits
  · rw [hn]
    exact popped_zero ⟨rfl, fun k _ => ⟨rfl, rfl⟩⟩
  · rw [hn]
    exact ⟨rfl, rfl, rfl, rfl, rfl, rfl, rfl⟩


/-! Loading an image (R328, R330, R331). -/

theorem imageBits_eq (image pos w : Nat) : imageBits image pos w = BitVec.ofNat w (image / 2 ^ pos) := by
  rw [imageBits, Nat.shiftRight_eq_div_pow]

theorem imageBits_getLsbD (image pos w i : Nat) :
    (imageBits image pos w).getLsbD i = (decide (i < w) && image.testBit (pos + i)) := by
  rw [imageBits, BitVec.getLsbD_ofNat, Nat.testBit_shiftRight]

theorem imageBits_extract {w d l : Nat} (h : d + l ≤ w) (image pos : Nat) :
    (imageBits image pos w).extractLsb' d l = imageBits image (pos + d) l := by
  refine BitVec.eq_of_getLsbD_eq fun i hi => ?_
  have hw : d + i < w := by omega
  simp only [BitVec.getLsbD_extractLsb', imageBits_getLsbD, hi, hw, decide_true, Bool.true_and, Nat.add_assoc]

theorem imageBits_low {w l : Nat} (h : l ≤ w) (image pos : Nat) :
    (imageBits image pos w).extractLsb' 0 l = imageBits image pos l := imageBits_extract (by omega) image pos

/-- A doubleword of an image is its two words. -/
theorem imageBits_halves (image pos : Nat) :
    imageBits image pos 32 = (imageBits image (pos + 16) 16 ++ imageBits image pos 16 : BitVec 32) := by
  rw [← imageBits_extract (w := 32) (d := 16) (by norm_num) image pos,
    ← imageBits_low (w := 32) (l := 16) (by norm_num) image pos, extract_halves]

theorem extract_low_half (a b : Word) : (a ++ b : BitVec 32).extractLsb' 0 16 = b := extract_withReserved a b

/-- The low twenty bits of a pointer loaded from a 16-bit real-address image (R53). -/
theorem extract_linear (a : BitVec 12) (b : BitVec 20) : (a ++ b : BitVec 32).extractLsb' 0 20 = b := by
  refine BitVec.eq_of_getLsbD_eq fun i hi => ?_
  simp only [BitVec.getLsbD_append, BitVec.getLsbD_extractLsb']
  interval_cases i <;> rfl

section

variable (x : Npx) (image n : Nat)

theorem envLoad_protected32 :
    (x.envLoad .protected32 image n).fip.off = (imageBits image (8 * 14) 16 ++ imageBits image (8 * 12) 16 : BitVec 32) ∧
      (x.envLoad .protected32 image n).fip.sel = imageBits image (8 * 16) 16 ∧
      (x.envLoad .protected32 image n).fop = (imageBits image (8 * 18) 16).extractLsb' 0 11 ∧
      (x.envLoad .protected32 image n).fdp.off =
        (imageBits image (8 * 22) 16 ++ imageBits image (8 * 20) 16 : BitVec 32) ∧
      (x.envLoad .protected32 image n).fdp.sel = imageBits image (8 * 24) 16 :=
  ⟨imageBits_halves image (32 * 3), rfl, (imageBits_low (w := 16) (by norm_num) image (8 * 18)).symm,
    imageBits_halves image (32 * 5), rfl⟩

theorem envLoad_protected16 :
    (x.envLoad .protected16 image n).fip.off.extractLsb' 0 16 = imageBits image (8 * 6) 16 ∧
      (x.envLoad .protected16 image n).fip.sel = imageBits image (8 * 8) 16 ∧
      (x.envLoad .protected16 image n).fdp.off.extractLsb' 0 16 = imageBits image (8 * 10) 16 ∧
      (x.envLoad .protected16 image n).fdp.sel = imageBits image (8 * 12) 16 :=
  ⟨extract_low_half _ _, rfl, extract_low_half _ _, rfl⟩

theorem envLoad_real32 :
    (x.envLoad .real32 image n).fip.lin =
        (imageBits image (8 * 16 + 12) 16 ++ imageBits image (8 * 12) 16 : BitVec 32) ∧
      (x.envLoad .real32 image n).fop = (imageBits image (8 * 16) 16).extractLsb' 0 11 ∧
      (x.envLoad .real32 image n).fdp.lin =
        (imageBits image (8 * 24 + 12) 16 ++ imageBits image (8 * 20) 16 : BitVec 32) :=
  ⟨rfl, (imageBits_low (w := 16) (by norm_num) image (8 * 16)).symm, rfl⟩

theorem envLoad_real16 :
    (x.envLoad .real16 image n).fip.lin.extractLsb' 0 20 =
        ((imageBits image (8 * 8) 16).extractLsb' 12 4 ++ imageBits image (8 * 6) 16 : BitVec 20) ∧
      (x.envLoad .real16 image n).fop = (imageBits image (8 * 8) 16).extractLsb' 0 11 ∧
      (x.envLoad .real16 image n).fdp.lin.extractLsb' 0 20 =
        ((imageBits image (8 * 12) 16).extractLsb' 12 4 ++ imageBits image (8 * 10) 16 : BitVec 20) := by
  refine ⟨?_, (imageBits_low (w := 16) (by norm_num) image (8 * 8)).symm, ?_⟩
  · rw [imageBits_extract (by norm_num)]
    exact extract_linear _ _
  · rw [imageBits_extract (by norm_num)]
    exact extract_linear _ _

end

/-- The registers FRSTOR loads, in the order of the TOP loaded (R330). -/
theorem restore_reg (x : Npx) (fmt : ImageFormat) (image n : Nat) (j : Idx) :
    (x.restore fmt image n).reg ((StatusWord.ofBits (imageBits image (fieldPos fmt 1) 16)).top + j) =
      imageBits image (8 * envSize fmt + 80 * j.toNat) 80 := by
  refine (vec8_get _ _).trans ?_
  rw [add_sub_cancel_left]

theorem ran_fldenv (p : List PrefixByte) (m : MemOperand) (s : State) :
    (s.ran (.fldenv p m)).npx = s.npx.envLoad (s.format (.fldenv p m)) (operandBytes s (.fldenv p m)) s.draws := rfl

theorem ran_frstor (p : List PrefixByte) (m : MemOperand) (s : State) :
    (s.ran (.frstor p m)).npx = s.npx.restore (s.format (.frstor p m)) (operandBytes s (.frstor p m)) s.draws := rfl

/-- FRSTOR loads its environment as FLDENV does, over the registers it has loaded. -/
theorem restore_eq_envLoad (x : Npx) (fmt : ImageFormat) (image n : Nat) :
    ∃ y : Npx, x.restore fmt image n = y.envLoad fmt image n := ⟨_, rfl⟩

/-- Either instruction loads an environment. -/
theorem ran_loads {i : Instr} {p : List PrefixByte} {m : MemOperand} (hi : i = .fldenv p m ∨ i = .frstor p m) (s : State) :
    ∃ y : Npx, (s.ran i).npx =
      y.envLoad (imageFormat s.cpu.mode (operandSize32 s.cpu.opSize32 p)) (operandBytes s i) s.draws := by
  rcases hi with rfl | rfl
  · exact ⟨_, ran_fldenv p m s⟩
  · exact restore_eq_envLoad _ _ _ _

theorem fieldPos_imageFormat (mode : Mode) (wide : Bool) (k : Nat) :
    fieldPos (imageFormat mode wide) k = if wide then 32 * k else 16 * k := by
  cases mode <;> cases wide <;> rfl

theorem envSize_imageFormat (mode : Mode) (wide : Bool) : envSize (imageFormat mode wide) = if wide then 28 else 14 := by
  cases mode <;> cases wide <;> rfl

/-- Settles O55: the fields loaded, one lemma for each format; the registers by `restore_reg`. -/
theorem loadEnvironmentImage : Obligations.LoadEnvironmentImage := by
  unfold Obligations.LoadEnvironmentImage
  intro p m s i hi ho
  refine ⟨_, exec_of_operable ho, ?_⟩
  obtain ⟨y, hy⟩ := ran_loads hi s
  extract_lets img wide prot bits upper sw tw
  have hbits (byte : Nat) : bits byte = imageBits img (8 * byte) 16 := (imageBits_eq _ _ _).symm
  have hupper (byte : Nat) : upper byte = imageBits img (8 * byte + 12) 16 := (imageBits_eq _ _ _).symm
  have hsw : sw = StatusWord.ofBits (imageBits img (fieldPos (imageFormat s.cpu.mode wide) 1) 16) := by
    simp only [sw, hbits, fieldPos_imageFormat]
    cases wide <;> rfl
  have htw : tw = imageBits img (fieldPos (imageFormat s.cpu.mode wide) 2) 16 := by
    simp only [tw, hbits, fieldPos_imageFormat]
    cases wide <;> rfl
  clear_value bits upper sw tw
  refine ⟨?cw, ?sw, ?regs, ?stack, fun k => ?tags, ?_, ?_, ?_, ?_⟩
  case cw => rw [hy, hbits]; rfl
  case sw => rw [hy, hsw]; rfl
  case regs =>
    rintro rfl
    rw [ran_fldenv]
    rfl
  case stack =>
    rintro rfl j
    have hs : 8 * ((if wide then 28 else 14) + 10 * j.toNat) =
        8 * envSize (s.format (.frstor p m)) + 80 * j.toNat := by
      have : envSize (s.format (.frstor p m)) = if wide then 28 else 14 := envSize_imageFormat _ _
      rw [this]
      ring
    rw [ran_frstor, hs, ← imageBits_eq, hsw]
    exact restore_reg _ _ _ _ _
  case tags =>
    have hk : 2 * k.toNat + 2 ≤ 16 := by have := k.isLt; omega
    rw [htw, imageBits_extract hk, hy]
    exact Npx.envLoad_tag _ _ _ _ _
  all_goals
    intro hw hp
    replace hw : operandSize32 s.cpu.opSize32 p = _ := hw
    rw [hw] at hy
    simp only [hbits, hupper, hy]
  · rw [show s.cpu.mode = .protectedMode from of_decide_eq_true hp]
    exact envLoad_protected32 _ _ _
  · rw [show s.cpu.mode = .protectedMode from of_decide_eq_true hp]
    exact envLoad_protected16 _ _ _
  · rw [imageFormat_real (of_decide_eq_false hp)]
    exact envLoad_real32 _ _ _
  · rw [imageFormat_real (of_decide_eq_false hp)]
    exact envLoad_real16 _ _ _


/-! FSAVE, then FRSTOR (R329, R330). -/

theorem stored_fsave (p : List PrefixByte) (m : MemOperand) (s : State) :
    s.stored (.fsave p m) = some (s.npx.stateImage (s.format (.fsave p m)) s.draws) := rfl

theorem ran_fsave (p : List PrefixByte) (m : MemOperand) (s : State) : (s.ran (.fsave p m)).npx = s.npx.init := rfl

/-- A low part below A under a high part below B. -/
theorem low_add_mul_lt {a b A B : Nat} (ha : a < A) (hb : b < B) : a + A * b < A * B :=
  calc a + A * b < A + A * b := Nat.add_lt_add_right ha _
    _ = A * (b + 1) := by rw [Nat.mul_succ, Nat.add_comm]
    _ ≤ A * B := Nat.mul_le_mul_left A hb

theorem stateImage_lt (x : Npx) (fmt : ImageFormat) (n : Nat) : x.stateImage fmt n < 2 ^ (8 * (envSize fmt + 80)) := by
  rw [Npx.stateImage, Nat.mul_add, Nat.pow_add]
  have hr := packFields_lt 80 [(x.st 0).toNat, (x.st 1).toNat, (x.st 2).toNat, (x.st 3).toNat, (x.st 4).toNat,
    (x.st 5).toNat, (x.st 6).toNat, (x.st 7).toNat]
  exact low_add_mul_lt (envImage_lt x fmt n) (hr.trans_eq (congrArg (2 ^ ·) (Nat.mul_comm 80 8)))

/-- The first bits of a state image are its environment's (R56). -/
theorem stateImage_env (x : Npx) (fmt : ImageFormat) (n : Nat) {pos l : Nat} (h : pos + l ≤ 8 * envSize fmt) :
    BitVec.ofNat l (x.stateImage fmt n / 2 ^ pos) = BitVec.ofNat l (x.envImage fmt n / 2 ^ pos) := by
  refine BitVec.eq_of_toNat_eq ?_
  obtain ⟨e, he⟩ := Nat.exists_eq_add_of_le h
  rw [BitVec.toNat_ofNat, BitVec.toNat_ofNat, Npx.stateImage, he, Nat.add_assoc, Nat.pow_add, Nat.mul_assoc,
    Nat.add_mul_div_left _ _ (by positivity), Nat.pow_add, Nat.mul_assoc, Nat.add_mul_mod_self_left]

/-- The ten bytes of ST(j) in a state image (R56). -/
theorem stateImage_st (x : Npx) (fmt : ImageFormat) (n : Nat) (j : Idx) :
    BitVec.ofNat 80 (x.stateImage fmt n / 2 ^ (8 * (envSize fmt + 10 * j.toNat))) = x.st j := by
  have hpos : 8 * (envSize fmt + 10 * j.toNat) = 8 * envSize fmt + 80 * j.toNat := by ring
  rw [Npx.stateImage, hpos, Nat.pow_add, ← Nat.div_div_eq_div_mul, Nat.add_mul_div_left _ _ (by positivity),
    Nat.div_eq_of_lt (envImage_lt x fmt n), Nat.zero_add, packFields_bits (k := j.toNat) (w := 80) (pos := 80 * j.toNat) (d := 0)
      (b := x.st j) ?_ le_rfl rfl,
    extract_self]
  induction j using idx_cases <;> rfl

/-- The operand of FRSTOR after FSAVE is the one FSAVE stored (R330): only the program counter has moved. -/
theorem operandBytes_frstor_ran (p : List PrefixByte) (m : MemOperand) (s : State) :
    operandBytes (s.ran (.fsave p m)) (.frstor p m) = storedBytes s (s.ran (.fsave p m)) (.fsave p m) := rfl

theorem storedBytes_fsave {p : List PrefixByte} {m : MemOperand} {s : State} (hm : s.mem.wf = true) :
    storedBytes s (s.ran (.fsave p m)) (.fsave p m) = s.npx.stateImage (s.format (.fsave p m)) s.draws := by
  have hb : envSize (s.format (.fsave p m)) + 80 ≤ 2 ^ 16 := by cases s.format (.fsave p m) <;> simp [envSize]
  rw [storedBytes_ran hm (stored_fsave p m s) rfl hb]
  exact Nat.mod_eq_of_lt (stateImage_lt _ _ _)

/-- FRSTOR runs after FSAVE when its operand can be read: FSAVE leaves ES clear. -/
theorem operable_frstor_ran {p : List PrefixByte} {m : MemOperand} {s : State} (ho : operable s (.fsave p m) = true)
    (ha : accessOk (s.ran (.fsave p m)) (.frstor p m) = true) : operable (s.ran (.fsave p m)) (.frstor p m) = true := by
  have hem : s.cpu.em = false := by simp_all [operable]
  have hts : s.cpu.ts = false := by simp_all [operable]
  have hes : (s.ran (.fsave p m)).npx.sw.es = false := rfl
  have hem' : (s.ran (.fsave p m)).cpu.em = false := hem
  have hts' : (s.ran (.fsave p m)).cpu.ts = false := hts
  unfold operable
  simp only [ha, hes, hem', hts']
  rfl

/-- The tag word's bits for register k (R25). -/
theorem extract_tagWord (t : Vector Tag 8) (k : Idx) :
    (tagWord t).extractLsb' (2 * k.toNat) 2 = (t[k.toNat]'k.isLt).toBits := by
  induction k using idx_cases
  all_goals
    refine BitVec.eq_of_getLsbD_eq fun i hi => ?_
    simp only [tagWord, BitVec.getLsbD_append, BitVec.getLsbD_extractLsb']
    interval_cases i <;> rfl

theorem Tag.toBits_eq_three_iff (t : Tag) : t.toBits = 3 ↔ t = .empty := by cases t <;> decide

/-- A lawful tag is what a load makes of its two bits (R26). -/
theorem loadTag_toBits {x : Npx} (h : x.tagLaw) (k : Idx) : loadTag (x.tag k).toBits (x.reg k) = x.tag k := by
  unfold loadTag
  by_cases hk : x.tag k = .empty
  · rw [if_pos ((Tag.toBits_eq_three_iff _).2 hk), hk]
  · rw [if_neg fun h' => hk ((Tag.toBits_eq_three_iff _).1 h'), h k hk]

/-- The three words of an image in any format (R49). -/
theorem envImage_words (x : Npx) (n : Nat) (mode : Mode) (wide : Bool) {bits : Nat → BitVec 16}
    (hbits : ∀ byte, byte ≤ 12 → bits byte = BitVec.ofNat 16 (x.envImage (imageFormat mode wide) n / 2 ^ (8 * byte))) :
    ControlWord.ofBits (bits 0) = x.cw ∧ bits (if wide then 4 else 2) = x.sw.toBits ∧
      bits (if wide then 8 else 4) = tagWord x.tags := by
  rw [hbits 0 (by norm_num), hbits _ (by split <;> norm_num), hbits _ (by split <;> norm_num)]
  cases wide with
  | true => exact envImage_words32 x n (imageFormat_wide mode) fun _ => rfl
  | false => exact envImage_words16 x n (imageFormat_narrow mode) fun _ => rfl

/-- Settles O56: FRSTOR's statement at the image FSAVE stored. -/
theorem saveThenRestore : Obligations.SaveThenRestore := by
  unfold Obligations.SaveThenRestore
  intro p m s ho hm hes htag
  refine ⟨_, exec_of_operable ho, rfl, statusWord_init_toBits, fun k => tag_reset k rfl, rfl, rfl, rfl, rfl, fun ha => ?_⟩
  have hload := loadEnvironmentImage p m _ _ (.inr rfl) (operable_frstor_ran ho ha)
  obtain ⟨u, hu, hfields⟩ := hload
  refine ⟨u, hu, ?_⟩
  rw [operandBytes_frstor_ran, storedBytes_fsave hm] at hfields
  extract_lets img wide prot bits upper sw tw at hfields
  obtain ⟨hcw, hsw, -, hst, htags, hprot, -⟩ := hfields
  have hsize : envSize (s.format (.fsave p m)) = if wide then 28 else 14 := envSize_imageFormat _ _
  have hbits {byte : Nat} (h : byte + 2 ≤ if wide then 28 else 14) :
      bits byte = BitVec.ofNat 16 (s.npx.envImage (imageFormat s.cpu.mode wide) s.draws / 2 ^ (8 * byte)) :=
    stateImage_env s.npx _ s.draws (by rw [hsize]; omega)
  obtain ⟨h0, h1, h2⟩ := envImage_words s.npx s.draws s.cpu.mode wide (bits := bits)
    fun byte h => hbits (by split <;> omega)
  have hsw0 : sw = s.npx.sw := by rw [← StatusWord.ofBits_toBits s.npx.sw, ← h1]
  have htw : tw = tagWord s.npx.tags := h2
  have hcwu : u.npx.cw = s.npx.cw := hcw.trans h0
  have hreg (k : Idx) : u.npx.reg k = s.npx.reg k := by
    have := hst rfl (k - sw.top)
    rw [← hsize, stateImage_st, hsw0, add_sub_cancel] at this
    rw [this, Npx.st, Npx.phys, add_sub_cancel]
  refine ⟨hcwu, ?_, Npx.regs_ext _ _ hreg, Npx.tags_ext _ _ fun k => ?_, fun hp hw => ?_⟩
  · obtain ⟨he, hb⟩ := hes
    rw [hsw, hsw0, hcwu, ← he]
    exact congrArg (fun b => { s.npx.sw with b := b }) hb.symm
  · rw [htags, htw, extract_tagWord, hreg]
    exact loadTag_toBits htag k
  · obtain ⟨hfo, hfs, hfop, hdo, hds⟩ := hprot hw (decide_eq_true hp)
    have hw' : wide = true := hw
    obtain ⟨e1, e2, e3, e4, e5⟩ := envImage_protected32 s.npx s.draws (bits := fun byte =>
      BitVec.ofNat 16 (s.npx.envImage .protected32 s.draws / 2 ^ (8 * byte))) fun _ => rfl
    rw [hw', hp] at hbits
    rw [hbits (by norm_num), hbits (by norm_num)] at hfo hdo
    rw [hbits (by norm_num)] at hfs hfop hds
    exact ⟨hfs.trans e2, hfo.trans e1, hds.trans e5, hdo.trans e4,
      hfop.trans ((congrArg (fun v : Word => v.extractLsb' 0 11) e3).trans (extract_fop _ _))⟩

end Sys2Proof.Machine
end

section
/-! PROOFS. The bus: Table 3.4, the state machine and outputs of one CLK, and the handshake
(spec/47_hardware_interface.md R354 to R374), from the laws of one CLK. -/

namespace Sys2Proof.Machine

/-! The state machine of R370, state by state. -/

theorem BusUnit.clockPhase_ti {u : BusUnit} (h : u.phase = .ti) (p : BusPins) (ev : UnitEvents) :
    (p.ads = true → (u.clockPhase p ev).phase = .ti ∧ (u.clockPhase p ev).cycle = u.cycle) ∧
      (p.ads = false → (u.clockPhase p ev).phase = .trs ∧
        (u.clockPhase p ev).cycle = some { kind := cycleType p, trs := 1 }) := by
  constructor <;> intro ha <;> simp [BusUnit.clockPhase, h, ha]

theorem BusUnit.clockPhase_trs {u : BusUnit} (h : u.phase = .trs) (p : BusPins) (ev : UnitEvents) :
    (p.ready = true → (u.clockPhase p ev).phase = .trs ∧ ∀ c, u.cycle = some c →
        (u.clockPhase p ev).cycle = some { kind := c.kind, trs := c.trs + 1 }) ∧
      (p.ready = false → p.ads = true → (u.clockPhase p ev).phase = .ti ∧ (u.clockPhase p ev).cycle = none) ∧
      (p.ready = false → p.ads = false → (u.clockPhase p ev).phase = .tp ∧
        (u.clockPhase p ev).cycle = some { kind := cycleType p, trs := 0 }) := by
  refine ⟨fun hr => ?_, fun hr ha => ?_, fun hr ha => ?_⟩
  · simp +contextual [BusUnit.clockPhase, h, hr]
  · simp [BusUnit.clockPhase, h, hr, ha]
  · simp [BusUnit.clockPhase, h, hr, ha]

theorem BusUnit.clockPhase_tp {u : BusUnit} (h : u.phase = .tp) (p : BusPins) (ev : UnitEvents) :
    (u.clockPhase p ev).phase = .trs ∧ ∀ c, u.cycle = some c →
      (u.clockPhase p ev).cycle = some { kind := c.kind, trs := 1 } := by
  simp +contextual [BusUnit.clockPhase, h]

/-- READYO is LOW in the one TRS state that R363 names for the cycle's type. -/
theorem BusUnit.readyo_iff (u : BusUnit) :
    u.readyo = true ↔ ∃ c, u.phase = .trs ∧ u.cycle = some c ∧
      ((c.kind = .opcodeWrite ∧ c.trs = 1) ∨ (c.kind = .controlRead ∧ c.trs = 2) ∨ (c.kind = .dataRead ∧ c.trs = 2) ∨
        (c.kind = .dataWrite ∧ c.trs = if u.envLoad then 2 else 1)) := by
  unfold BusUnit.readyo
  split
  case h_1 c hp hc =>
    obtain ⟨k, n⟩ := c
    cases k <;> simp [hp, hc, CycleType.selected, readyoTrs, CycleType.isRead]
  case h_2 hne =>
    simp only [Bool.false_eq_true, false_iff]
    rintro ⟨c, hp, hc, -⟩
    exact hne c hp hc

theorem CycleType.isRead_iff (k : CycleType) : k.isRead = true ↔ k = .controlRead ∨ k = .dataRead := by
  cases k <;> simp [CycleType.isRead]

/-- D31-D0 are driven in the TRS states of a read (R372). -/
theorem busOutputs_data_iff (s : State) {p : BusPins} (h : p.sten = true) :
    (busOutputs s p).data.isSome = true ↔ ∃ c, s.bus.phase = .trs ∧ s.bus.cycle = some c ∧
      (c.kind = .controlRead ∨ c.kind = .dataRead) := by
  simp only [busOutputs, h, if_true]
  split
  case h_1 c hp hc =>
    simp only [hp, hc, true_and, Option.some.injEq, exists_eq_left', ← CycleType.isRead_iff]
    cases c.kind.isRead <;> simp
  case h_2 hne =>
    simp only [Option.isSome_none, Bool.false_eq_true, false_iff]
    rintro ⟨c, hp, hc, -⟩
    exact hne c hp hc

/-- The state after a CLK without RESETIN that is not refused. -/
theorem busClock_next {s t : State} {p : BusPins} {ev : UnitEvents} (hr : p.resetin = false)
    (h : busClock s p ev = .next t) :
    t = { s with
      npx := (s.reported ev).getD s.npx,
      bus := ((s.bus.clockGaps (busTicks p ev)).clockUnit ev
        ((s.reported ev).any fun x => x.sw.es != s.npx.sw.es)).clockPhase p ev,
      draws := s.draws + 1 } := by
  rcases busClock_eq_next_iff.1 h with ⟨hr', -⟩ | ⟨-, -, -, ht⟩
  · cases hr.symm.trans hr'
  · exact ht

/-- Settles O59. -/
theorem busCyclesAndStates : Obligations.BusCyclesAndStates := by
  unfold Obligations.BusCyclesAndStates
  refine ⟨fun p => ?cycles, fun s t p ev hr h => ?machine, fun s p hs => ?floating, fun s p hs => ?outputs,
    fun s p ev hr => ?reset⟩
  case cycles =>
    refine ⟨fun hs => ?_, fun hs h1 => ?_, fun hs h2 => ?_, fun hs h1 h2 => ?_, fun hs => ⟨?_, ?_, fun a ha => ?_, fun a => ?_⟩⟩
    · simp [cycleType, hs]
    · simp [cycleType, hs, h1]
    · simp [cycleType, hs, h2]
    · cases hc : p.cmd0 <;> cases hw : p.wr <;> simp [cycleType, hs, h1, h2, hc, hw]
    · simp [cycleType, BusPins.atIo, hs]
    · simp [cycleType, BusPins.atIo, hs]
    · simp only [cycleType, BusPins.atIo, hs, ha]
      rfl
    · simp [cycleType, BusPins.atMemory, hs]
  case machine =>
    rw [busClock_next hr h]
    generalize (s.reported ev).any _ = e
    have hp : ((s.bus.clockGaps (busTicks p ev)).clockUnit ev e).phase = s.bus.phase := by simp
    have hc : ((s.bus.clockGaps (busTicks p ev)).clockUnit ev e).cycle = s.bus.cycle := by simp
    rw [← hp, ← hc]
    exact ⟨fun h => BusUnit.clockPhase_ti h p ev, fun h => BusUnit.clockPhase_trs h p ev,
      fun h => BusUnit.clockPhase_tp h p ev, rfl, rfl⟩
  case floating => simp [busOutputs, hs]
  case outputs =>
    refine ⟨by simp [busOutputs, hs], by simp [busOutputs, hs], by simp [busOutputs, hs], by simp [busOutputs, hs], ?_,
      busOutputs_data_iff s hs⟩
    rw [← BusUnit.readyo_iff]
    simp [busOutputs, hs]
  case reset =>
    refine ⟨_, busClock_eq_next_iff.2 (.inl ⟨hr, rfl⟩), rfl, fun r hs => ?_⟩
    simp only [busOutputs, hs, if_true]
    rfl

/-! The handshake. -/

/-- PEREQ is active exactly while pieces are to move; moving one keeps it so (R357, R366). -/
theorem BusUnit.endCycle_pereq (u : BusUnit) (k : CycleType) (p : BusPins) (ev : UnitEvents) :
    ((u.endCycle k p ev).pereq = u.pereq ∧ (u.endCycle k p ev).pieces = u.pieces) ∨
      ((u.endCycle k p ev).pereq = (u.pereq && decide (1 < u.pieces)) ∧ (u.endCycle k p ev).pieces = u.pieces - 1) := by
  cases k with
  | dataWrite | dataRead => exact .inr ⟨rfl, rfl⟩
  | _ => exact .inl ⟨rfl, rfl⟩

theorem BusUnit.clockPhase_pereq (u : BusUnit) (p : BusPins) (ev : UnitEvents) :
    ((u.clockPhase p ev).pereq = u.pereq ∧ (u.clockPhase p ev).pieces = u.pieces) ∨
      ((u.clockPhase p ev).pereq = (u.pereq && decide (1 < u.pieces)) ∧ (u.clockPhase p ev).pieces = u.pieces - 1) := by
  unfold BusUnit.clockPhase
  split
  · split <;> exact .inl ⟨rfl, rfl⟩
  · exact .inl ⟨rfl, rfl⟩
  · split
    · exact .inl ⟨rfl, rfl⟩
    · split
      case h_1 c _ =>
        have h := u.endCycle_pereq c.kind p ev
        split <;> exact h
      case h_2 => split <;> exact .inl ⟨rfl, rfl⟩

theorem BusUnit.pereq_of_clockPhase {u : BusUnit} {p : BusPins} {ev : UnitEvents} (h : (u.clockPhase p ev).pereq = true) :
    u.pereq = true := by
  rcases u.clockPhase_pereq p ev with ⟨e, -⟩ | ⟨e, -⟩
  · exact e ▸ h
  · rw [e, Bool.and_eq_true] at h
    exact h.1

/-- A cycle puts at most one operand into the FIFO (R364). -/
theorem BusUnit.clockPhase_fifo_length (u : BusUnit) (p : BusPins) (ev : UnitEvents) :
    (u.clockPhase p ev).fifo.length ≤ u.fifo.length + 1 := by
  have hend (k : CycleType) : (u.endCycle k p ev).fifo.length ≤ u.fifo.length + 1 := by
    cases k with
    | dataWrite => simp [BusUnit.endCycle]
    | dataRead => simp [BusUnit.endCycle]; omega
    | _ => exact Nat.le_succ _
  unfold BusUnit.clockPhase
  split
  · split <;> exact Nat.le_succ _
  · exact Nat.le_succ _
  · split
    · exact Nat.le_succ _
    · split
      case h_1 c _ =>
        have h := hend c.kind
        split <;> exact h
      case h_2 => split <;> exact Nat.le_succ _

/-- The bus control logic keeps the invariant: a cycle's end moves a piece or latches an opcode. -/
theorem BusUnit.clockPhase_inv {u : BusUnit} (h : u.Inv) (p : BusPins) (ev : UnitEvents) : (u.clockPhase p ev).Inv := by
  obtain ⟨hpieces, hbusy, herr, hop⟩ := h
  refine ⟨?_, fun hp => ?_, ?_, fun ho => ?_⟩
  · rcases u.clockPhase_pereq p ev with ⟨e, e'⟩ | ⟨e, e'⟩
    · rw [e, e', hpieces]
    · rw [e, e', Bool.and_eq_true, hpieces, decide_eq_true_eq]
      omega
  · rw [BusUnit.clockPhase_busy]
    exact hbusy (BusUnit.pereq_of_clockPhase hp)
  · rw [BusUnit.clockPhase_busy, BusUnit.clockPhase_errorFor]
    exact herr
  · by_cases hc : u.cycleEnds p .opcodeWrite
    · obtain ⟨e, -, -⟩ := BusUnit.clockPhase_opcode ev hc
      cases e.symm.trans ho
    · obtain ⟨e, e', -⟩ := BusUnit.clockPhase_no_opcode ev hc
      rw [BusUnit.clockPhase_busy, e']
      exact hop (e ▸ ho)

/-- PEREQ rises only with pieces to move (R366). -/
theorem BusUnit.raises_elim {u : BusUnit} {ev : UnitEvents} (h : u.raises ev = true) :
    ev.request ≠ 0 ∧ u.busy = true ∧ u.errorFor = none := by
  simp only [BusUnit.raises, BusUnit.mayRequest, Bool.and_eq_true, bne_iff_ne, Option.isNone_iff_eq_none] at h
  obtain ⟨⟨⟨⟨hb, -⟩, -⟩, he⟩, hr⟩ := h
  exact ⟨hr, hb, he⟩

theorem BusUnit.clockUnit_inv {u : BusUnit} (h : u.Inv) (ev : UnitEvents) (e : Bool) : (u.clockUnit ev e).Inv := by
  obtain ⟨hpieces, hbusy, herr, hop⟩ := h
  unfold BusUnit.clockUnit
  split
  case isTrue hi =>
    exact ⟨hpieces, fun _ => rfl, fun h => absurd rfl h, fun ho => by rw [(hop ho).2] at hi; cases hi⟩
  case isFalse hi =>
    split
    case isTrue he =>
      obtain ⟨-, hb, hp, -, -⟩ := BusUnit.ends_elim he
      refine ⟨?_, fun h => ?_, fun h => absurd rfl h, fun ho => ?_⟩
      · rw [hp]; simp
      · cases hp.symm.trans h
      · cases hb.symm.trans (hop ho).1
    case isFalse he =>
      split
      case isTrue hb =>
        refine ⟨?_, fun _ => hb, fun _ => hb, fun ho => ?_⟩
        · cases hr : u.raises ev with
          | true => simpa using (BusUnit.raises_elim hr).1
          | false => simpa using hpieces
        · cases hb.symm.trans (hop ho).1
      case isFalse hb =>
        refine ⟨hpieces, hbusy, herr, fun ho => ⟨(hop ho).1, ?_⟩⟩
        show u.busyIn - 1 = 0
        rw [(hop ho).2]

theorem BusUnit.clockGaps_inv {u : BusUnit} (h : u.Inv) (n : Nat) : (u.clockGaps n).Inv := h

theorem BusUnit.reset_inv (n : Nat) : ({ BusUnit.reset with resetFor := n } : BusUnit).Inv := by
  unfold BusUnit.Inv
  simp [BusUnit.reset]

theorem busClock_inv {s t : State} {p : BusPins} {ev : UnitEvents} (hs : s.bus.Inv) (h : busClock s p ev = .next t) :
    t.bus.Inv := by
  rcases busClock_eq_next_iff.1 h with ⟨-, rfl⟩ | ⟨-, -, -, rfl⟩
  · exact BusUnit.reset_inv _
  · exact BusUnit.clockPhase_inv (BusUnit.clockUnit_inv (BusUnit.clockGaps_inv hs _) ev _) p ev

/-- ERROR changes only when the unit may report a change (R374). -/
theorem State.reported_change {s : State} {ev : UnitEvents}
    (h : ((s.reported ev).getD s.npx).sw.es ≠ s.npx.sw.es) :
    ((s.reported ev).any fun x => x.sw.es != s.npx.sw.es) = true ∧ s.bus.mayReport ev = true ∧
      (((s.reported ev).getD s.npx).sw.es = true ∨ s.bus.mayClear = true) := by
  cases hr : s.reported ev with
  | none => rw [hr] at h; exact absurd rfl h
  | some x =>
    rw [hr] at h
    obtain ⟨-, -, hx⟩ := State.reported_eq_some hr
    obtain ⟨hm, hc⟩ := hx.resolve_left h
    exact ⟨by simpa using h, hm, hc⟩

/-- The part of a CLK that says whether ERROR changes. -/
theorem State.reported_same {s : State} {ev : UnitEvents} (h : ((s.reported ev).getD s.npx).sw.es = s.npx.sw.es) :
    ((s.reported ev).any fun x => x.sw.es != s.npx.sw.es) = false := by
  cases hr : s.reported ev with
  | none => rfl
  | some x =>
    rw [hr] at h
    simpa using h

/-- BUSY ends only where `ends` says so. -/
theorem BusUnit.ends_of_clockUnit {u : BusUnit} {ev : UnitEvents} {e : Bool} (hb : u.busy = true)
    (h : (u.clockUnit ev e).busy = false) : u.ends ev = true := by
  by_cases hi : u.busyIn = 1
  · cases h.symm.trans (BusUnit.clockUnit_starts ev e hi).1
  · by_contra he
    cases h.symm.trans (BusUnit.clockUnit_goes_on e hi (Bool.eq_false_iff.2 he) hb).1

/-- BUSY that is active after a CLK in which it did not start was active before, and did not end. -/
theorem BusUnit.goes_on_of_clockUnit {u : BusUnit} {ev : UnitEvents} {e : Bool} (hi : u.busyIn ≠ 1)
    (h : (u.clockUnit ev e).busy = true) : u.busy = true ∧ u.ends ev = false := by
  refine ⟨?_, Bool.eq_false_iff.2 fun he => ?_⟩
  · by_contra hb
    rw [BusUnit.clockUnit_idle ev e hi (Bool.eq_false_iff.2 hb)] at h
    exact hb h
  · cases h.symm.trans (BusUnit.clockUnit_ends e he).1

/-- PEREQ rises only while BUSY is active and stays so. -/
theorem BusUnit.busy_of_pereq_rises {u : BusUnit} {ev : UnitEvents} {e : Bool} (hp : u.pereq = false)
    (h : (u.clockUnit ev e).pereq = true) : u.busy = true ∧ (u.clockUnit ev e).busy = true := by
  by_cases hi : u.busyIn = 1
  · cases hp.symm.trans ((BusUnit.clockUnit_starts ev e hi).2.2.2.1.symm.trans h)
  by_cases he : u.ends ev = true
  · cases hp.symm.trans ((BusUnit.clockUnit_ends e he).2.2.2.1.symm.trans h)
  by_cases hb : u.busy = true
  · exact ⟨hb, (BusUnit.clockUnit_goes_on e hi (Bool.eq_false_iff.2 he) hb).1⟩
  · rw [BusUnit.clockUnit_idle ev e hi (Bool.eq_false_iff.2 hb)] at h
    cases hp.symm.trans h

/-- The count of CLK without PEREQ (t34 of R374). -/
theorem BusUnit.clockUnit_quietFor {u : BusUnit} {ev : UnitEvents} {e : Bool} (hb : u.busy = true)
    (h : (u.clockUnit ev e).busy = true) :
    (u.clockUnit ev e).quietFor = if u.pereq then 0 else u.quietFor + 1 := by
  by_cases hi : u.busyIn = 1
  · obtain ⟨-, -, -, -, hq⟩ := BusUnit.clockUnit_starts ev e hi
    rw [hq, if_pos hb]
  · obtain ⟨-, he⟩ := BusUnit.goes_on_of_clockUnit hi h
    exact (BusUnit.clockUnit_goes_on e hi he hb).2.2.2.2

/-- The CLK of BUSY and those since ERROR changed (t32, t33 of R374). -/
theorem BusUnit.clockUnit_counts {u : BusUnit} {ev : UnitEvents} {e : Bool} (hi : u.busyIn ≠ 1)
    (h : (u.clockUnit ev e).busy = true) :
    u.busy = true ∧ (u.clockUnit ev e).busyFor = u.busyFor + 1 ∧
      (u.clockUnit ev e).errorFor = if e then some 0 else u.errorFor.map (· + 1) := by
  obtain ⟨hb, he⟩ := BusUnit.goes_on_of_clockUnit hi h
  obtain ⟨-, hf, hr, -, -⟩ := BusUnit.clockUnit_goes_on e hi he hb
  exact ⟨hb, hf, hr⟩

theorem busClock_stops_of_low {s : State} {p : BusPins} {ev : UnitEvents} (hr : p.resetin = false)
    (h : s.bus.resetTooShort = true ∨ (s.bus.clockGaps (busTicks p ev)).tooSoon p = true) :
    busClock s p ev = .refused .busTiming := by
  refine busClock_stops fun t ht => ?_
  rcases busClock_eq_next_iff.1 ht with ⟨hr', -⟩ | ⟨-, h1, h2, -⟩
  · cases hr.symm.trans hr'
  · rcases h with h | h
    · cases h1.symm.trans h
    · cases h2.symm.trans h

/-- A CLK ends a cycle of one type at most. -/
theorem BusUnit.cycleEnds_unique {u : BusUnit} {p : BusPins} {k k' : CycleType} (h : u.cycleEnds p k)
    (h' : u.cycleEnds p k') : k = k' := by
  obtain ⟨-, -, n, hn⟩ := h
  obtain ⟨-, -, n', hn'⟩ := h'
  cases hn.symm.trans hn'
  rfl

/-- Settles O60: the invariant by the parts of a CLK, the handshake by `busClock_handshake`, the refusals by the minimum
times. -/
theorem busHandshake : Obligations.BusHandshake := by
  unfold Obligations.BusHandshake
  refine ⟨BusUnit.reset_inv 0, fun s t p ev => busClock_inv, fun s t p ev hr h => ?clock, fun s p ev hr => ?reset,
    fun p ev => ?ticks, fun s p ev hr h0 h40 => ?short, fun s p ev hr hc hs => ?soon, fun s p ev hr h40 hc => ?goes⟩
  case clock =>
    have ht := busClock_next hr h
    generalize he : ((s.reported ev).any fun x => x.sw.es != s.npx.sw.es) = e at ht
    have hnpx : t.npx = (s.reported ev).getD s.npx := by rw [ht]
    set u := s.bus.clockGaps (busTicks p ev) with hu
    set w := u.clockUnit ev e with hw
    have hbus : t.bus = w.clockPhase p ev := by rw [ht]
    have hbusy : t.bus.busy = w.busy := by rw [hbus, BusUnit.clockPhase_busy]
    have hbusyFor : t.bus.busyFor = w.busyFor := by rw [hbus, BusUnit.clockPhase_busyFor]
    have herr : t.bus.errorFor = w.errorFor := by rw [hbus, BusUnit.clockPhase_errorFor]
    have hquiet : t.bus.quietFor = w.quietFor := by rw [hbus, BusUnit.clockPhase_quietFor]
    rw [hbusy, hbusyFor, herr, hquiet, hnpx]
    refine ⟨fun hp hp' => ?_, fun hne => ?_, fun hne => ?_, fun h1 h0 => ?_, fun hi => ?_, fun hi hb => ?_, fun hb hb' => ?_,
      fun hb hb' => ?_, fun hb hb' => ?_, fun hc => ?_, fun hc => ?_, ?_, ?_⟩
    · exact BusUnit.busy_of_pereq_rises (u := u) hp (BusUnit.pereq_of_clockPhase (hbus ▸ hp'))
    · cases hx : s.reported ev with
      | none => rw [hx] at hne; exact absurd rfl hne
      | some x => exact (State.reported_eq_some hx).2.1
    · obtain ⟨hchange, hm, -⟩ := State.reported_change hne
      obtain ⟨hb, hi, hend, hp, hrise, hq, -⟩ := BusUnit.mayReport_elim hm
      obtain ⟨hwb, -, hwe, hwp, -⟩ := BusUnit.clockUnit_goes_on (u := u) e hi hend hb
      have hwp' : w.pereq = false := by rw [hw, hwp]; exact (congr (congrArg or hp) hrise)
      refine ⟨hwb, hp, Bool.eq_false_iff.2 fun htp => ?_, hq, ?_⟩
      · cases hwp'.symm.trans (BusUnit.pereq_of_clockPhase (hbus ▸ htp))
      · rw [hw, hwe, ← he, hchange, if_pos rfl]
    · obtain ⟨-, -, hclear⟩ := State.reported_change (s := s) (ev := ev) (by rw [h1, h0]; decide)
      have hmc := hclear.resolve_left (by rw [h0]; decide)
      simpa [BusUnit.mayClear] using hmc
    · obtain ⟨h1, h2, h3, -, h5⟩ := BusUnit.clockUnit_starts (u := u) ev e hi
      exact ⟨h1, h2, h3, fun hb => h5.trans (if_neg (ne_true_of_eq_false hb))⟩
    · obtain ⟨h1, h2, h3⟩ := BusUnit.clockUnit_counts (u := u) hi hb
      refine ⟨h1, h2, h3.trans ?_⟩
      by_cases hes : ((s.reported ev).getD s.npx).sw.es = s.npx.sw.es
      · rw [if_pos hes, ← he, State.reported_same hes]
        rfl
      · rw [if_neg hes, ← he, (State.reported_change hes).1, if_pos rfl]
    · exact BusUnit.clockUnit_quietFor (u := u) hb hb'
    · have hend := BusUnit.ends_of_clockUnit (u := u) hb hb'
      obtain ⟨-, -, hp, hf, hef⟩ := BusUnit.ends_elim hend
      obtain ⟨-, h2, h3, -, -, h6⟩ := BusUnit.clockUnit_ends e hend
      refine ⟨hp, hf, ?_, hef, h2, h3⟩
      have hlen := w.clockPhase_fifo_length p ev
      rw [← hbus, h6] at hlen
      exact hlen
    · have hi : u.busyIn ≠ 1 := fun hi => by cases hb'.symm.trans (BusUnit.clockUnit_starts ev e hi).1
      rw [hw, BusUnit.clockUnit_idle ev e hi hb]
      exact ⟨rfl, rfl, rfl⟩
    · rw [hbus]
      exact BusUnit.clockPhase_opcode ev ((BusUnit.clockUnit_cycleEnds u ev e p _).2 hc)
    · obtain ⟨-, h2, h3⟩ := BusUnit.clockPhase_no_opcode (u := w) ev fun h =>
        hc ((BusUnit.clockUnit_cycleEnds u ev e p _).1 h)
      rw [hbus, h2, h3, hw, BusUnit.clockUnit_busyIn, BusUnit.clockUnit_clearsError]
      exact ⟨rfl, rfl⟩
    · rw [hbus, BusUnit.clockPhase_settle, hw, BusUnit.clockUnit_settle]
      rfl
    · rw [hbus, BusUnit.clockPhase_resetFor, hw, BusUnit.clockUnit_resetFor]
      rfl
  case reset => exact ⟨_, busClock_eq_next_iff.2 (.inl ⟨hr, rfl⟩), rfl, rfl⟩
  case ticks =>
    refine ⟨fun hc => by simp [busTicks, hc], fun hc => ?_⟩
    simp only [busTicks, hc, Bool.false_eq_true, if_false]
    omega
  case short =>
    exact busClock_stops_of_low hr (.inl (by simp [BusUnit.resetTooShort, h0, h40]))
  case soon =>
    refine busClock_stops_of_low hr (.inr (BusUnit.tooSoon_iff.2 (.inl ⟨hc, .inl ?_⟩)))
    rw [BusUnit.clockGaps_settle]
    omega
  case goes =>
    refine ⟨_, busClock_eq_next_iff.2 (.inr ⟨hr, ?_, Bool.eq_false_iff.2 fun hts => ?_, rfl⟩)⟩
    · simp only [BusUnit.resetTooShort, Bool.and_eq_false_iff, bne_eq_false_iff_eq, decide_eq_false_iff_not]
      omega
    · rw [BusUnit.tooSoon_iff, BusUnit.clockGaps_cycleEnds, BusUnit.clockGaps_cycleEnds, BusUnit.clockGaps_settle,
        BusUnit.clockGaps_writeGap] at hts
      rcases hc with ⟨ho, hd⟩ | ⟨ho, hset, hgap⟩
      · exact hts.elim (fun h => ho h.1) fun h => hd h.1
      · rcases hts with ⟨-, h⟩ | ⟨h, -⟩
        · omega
        · cases BusUnit.cycleEnds_unique ho h

end Sys2Proof.Machine
end

section
/-! PROOFS. Rounding (spec/40_numerics_common.md R161): what `roundAt` computes of a magnitude is the rounding of the real
number the magnitude stands for, and that rounding is unique. -/

namespace Sys2Proof.Machine

/-! Signs and magnitudes. -/

section

variable {K : Type} [Field K]

/-- The factor of a sign. -/
def sgn (neg : Bool) : K := if neg then -1 else 1

@[simp] theorem sgn_true : (sgn true : K) = -1 := rfl
@[simp] theorem sgn_false : (sgn false : K) = 1 := rfl

theorem sgn_mul_self (neg : Bool) : (sgn neg * sgn neg : K) = 1 := by cases neg <;> simp

theorem sgn_mul_inj {neg : Bool} {a b : K} : sgn neg * a = sgn neg * b ↔ a = b := by cases neg <;> simp

theorem sgn_mul_int (neg : Bool) (q : Nat) (b : K) :
    sgn neg * ((q : K) * b) = (((if neg then -q else q : ℤ) : ℤ) : K) * b := by
  cases neg <;> simp

/-- An even number of units is twice a number of them. -/
theorem exists_twice {q : Nat} (h : q % 2 = 0) (neg : Bool) (b : K) :
    ∃ n : ℤ, sgn neg * ((q : K) * b) = 2 * n * b := by
  obtain ⟨k, hk⟩ := Nat.dvd_of_mod_eq_zero h
  refine ⟨if neg then -k else k, ?_⟩
  cases neg <;> simp [hk]

variable [LinearOrder K]

@[simp] theorem abs_sgn_mul (neg : Bool) (a : K) : |sgn neg * a| = |a| := by cases neg <;> simp

/-- The magnitude stands for the positive number a. -/
def Mag.Rep (v : Mag) (a : K) : Prop :=
  if v.sticky then (v.m : K) * 2 ^ v.e < a ∧ a < (v.m + 1 : K) * 2 ^ v.e else a = (v.m : K) * 2 ^ v.e

theorem Mag.Rep.le {v : Mag} {a : K} (h : v.Rep a) : (v.m : K) * 2 ^ v.e ≤ a := by
  unfold Mag.Rep at h
  split at h
  · exact h.1.le
  · exact h.ge

/-! One rounding step: q units below a, and what is left. -/

/-- q is the number of whole units 2^u in a, and `inexact` and `half` tell of the rest (R161). -/
structure UnitsIn (a : K) (u : ℤ) (q : Nat) (inexact : Bool) (half : Ordering) : Prop where
  le : (q : K) * 2 ^ u ≤ a
  lt : a < (q + 1 : K) * 2 ^ u
  inexact : inexact = true ↔ a ≠ (q : K) * 2 ^ u
  half : half = compare (2 * (a - q * 2 ^ u)) ((2 : K) ^ u)

/-- The multiple that R161 chooses. -/
def rounded (rc : BitVec 2) (neg : Bool) (q : Nat) (inexact : Bool) (half : Ordering) : Nat :=
  if roundsUp rc neg q inexact half then q + 1 else q

/-- A number is rounded up exactly when the chosen multiple is larger than it. -/
theorem UnitsIn.up_iff {a : K} {u : ℤ} {q : Nat} {inexact : Bool} {half : Ordering} (h : UnitsIn a u q inexact half)
    (rc : BitVec 2) (neg : Bool) :
    roundsUp rc neg q inexact half = true ↔ a < (rounded rc neg q inexact half : K) * 2 ^ u := by
  unfold rounded
  cases hr : roundsUp rc neg q inexact half with
  | false => simpa using h.le
  | true => simpa using h.lt

end

section

variable {K : Type} [Field K] [LinearOrder K] [IsStrictOrderedRing K]

theorem Mag.Rep.lt {v : Mag} {a : K} (h : v.Rep a) : a < (v.m + 1 : K) * 2 ^ v.e := by
  have hp : (0 : K) < 2 ^ v.e := zpow_pos two_pos _
  unfold Mag.Rep at h
  split at h
  · exact h.2
  · rw [h, add_mul, one_mul]
    exact lt_add_of_pos_right _ hp

theorem Mag.Rep.pos {v : Mag} {a : K} (h : v.Rep a) (hm : v.m ≠ 0) : 0 < a :=
  (mul_pos (Nat.cast_pos.2 (Nat.pos_of_ne_zero hm)) (zpow_pos two_pos _)).trans_le h.le

/-- A number that is a multiple of the unit is not rounded up (R161). -/
theorem UnitsIn.not_up {a : K} {u : ℤ} {q : Nat} {half : Ordering} (h : UnitsIn a u q false half)
    (rc : BitVec 2) (neg : Bool) : roundsUp rc neg q false half = false := by
  have ha : a = (q : K) * 2 ^ u := by
    by_contra hne
    exact Bool.false_ne_true (h.inexact.2 hne)
  have hhalf : half = .lt := by
    rw [h.half, ha, sub_self, mul_zero]
    exact compare_lt_iff_lt.2 (zpow_pos two_pos _)
  have hrc : rc.toNat < 4 := rc.isLt
  rw [hhalf, roundsUp]
  interval_cases rc.toNat <;> rfl

theorem UnitsIn.inexact_iff {a : K} {u : ℤ} {q : Nat} {inexact : Bool} {half : Ordering}
    (h : UnitsIn a u q inexact half) (rc : BitVec 2) (neg : Bool) :
    inexact = true ↔ (rounded rc neg q inexact half : K) * 2 ^ u ≠ a := by
  cases inexact with
  | false =>
    have ha : a = (q : K) * 2 ^ u := by
      by_contra hne
      exact Bool.false_ne_true (h.inexact.2 hne)
    rw [rounded, h.not_up rc neg]
    simp [ha]
  | true =>
    refine ⟨fun _ => ?_, fun _ => rfl⟩
    unfold rounded
    cases hr : roundsUp rc neg q true half with
    | false => simpa using (h.inexact.1 rfl).symm
    | true => simpa using h.lt.ne'

/-- To nearest, ties to the even multiple. -/
theorem UnitsIn.isNearest {a : K} {u : ℤ} {q : Nat} {inexact : Bool} {half : Ordering} (h : UnitsIn a u q inexact half)
    (neg : Bool) {Q : Nat} (hQ : Q = if half == .gt || (half == .eq && q % 2 == 1) then q + 1 else q) :
    2 * |sgn neg * ((Q : K) * 2 ^ u) - sgn neg * a| ≤ (2 : K) ^ u ∧
      (2 * |sgn neg * ((Q : K) * 2 ^ u) - sgn neg * a| = (2 : K) ^ u →
        ∃ n : ℤ, sgn neg * ((Q : K) * 2 ^ u) = 2 * n * (2 : K) ^ u) := by
  have hp : (0 : K) < 2 ^ u := zpow_pos two_pos _
  have hle := h.le
  have hlt := h.lt
  have hhalf := h.half
  rw [add_mul, one_mul] at hlt
  rw [← mul_sub, abs_sgn_mul]
  have hdown : |(q : K) * 2 ^ u - a| = a - q * 2 ^ u := by rw [abs_sub_comm, abs_of_nonneg (sub_nonneg.2 hle)]
  have hup : |((q + 1 : Nat) : K) * 2 ^ u - a| = q * 2 ^ u + 2 ^ u - a := by
    rw [abs_of_nonneg] <;> push_cast <;> linarith
  rcases lt_trichotomy (2 * (a - q * 2 ^ u)) ((2 : K) ^ u) with hc | hc | hc
  · rw [compare_lt_iff_lt.2 hc] at hhalf
    have hQ' : Q = q := by rw [hQ, hhalf]; rfl
    rw [hQ', hdown]
    exact ⟨hc.le, fun he => absurd he hc.ne⟩
  · rw [compare_eq_iff_eq.2 hc] at hhalf
    rcases Nat.mod_two_eq_zero_or_one q with hmod | hmod
    · have hQ' : Q = q := by rw [hQ, hhalf, hmod]; rfl
      rw [hQ', hdown]
      exact ⟨hc.le, fun _ => exists_twice hmod neg _⟩
    · have hQ' : Q = q + 1 := by rw [hQ, hhalf, hmod]; rfl
      rw [hQ', hup]
      exact ⟨by linarith, fun _ => exists_twice (by omega) neg _⟩
  · rw [compare_gt_iff_gt.2 hc] at hhalf
    have hQ' : Q = q + 1 := by rw [hQ, hhalf]; rfl
    rw [hQ', hup]
    exact ⟨by linarith, fun he => by linarith⟩

/-- Up in magnitude where the number is inexact: the next multiple away from zero. -/
theorem UnitsIn.ceil {a : K} {u : ℤ} {q : Nat} {inexact : Bool} {half : Ordering} (h : UnitsIn a u q inexact half) :
    a ≤ ((if inexact then q + 1 else q : Nat) : K) * 2 ^ u ∧
      ((if inexact then q + 1 else q : Nat) : K) * 2 ^ u < a + 2 ^ u := by
  have hp : (0 : K) < 2 ^ u := zpow_pos two_pos _
  have hle := h.le
  have hlt := h.lt
  rw [add_mul, one_mul] at hlt
  cases inexact with
  | false =>
    have ha : a = (q : K) * 2 ^ u := by
      by_contra hne
      exact Bool.false_ne_true (h.inexact.2 hne)
    simp [ha, hp]
  | true =>
    have hne : (q : K) * 2 ^ u < a := lt_of_le_of_ne hle (h.inexact.1 rfl).symm
    simp only [if_true]
    push_cast
    constructor <;> linarith

/-- R161: the chosen multiple is the rounding. -/
theorem UnitsIn.isRounding {a : K} {u : ℤ} {q : Nat} {inexact : Bool} {half : Ordering} (h : UnitsIn a u q inexact half)
    (rc : BitVec 2) (neg : Bool) :
    IsRounding rc (sgn neg * a) u (sgn neg * ((rounded rc neg q inexact half : K) * 2 ^ u)) := by
  have hp : (0 : K) < 2 ^ u := zpow_pos two_pos _
  have hle := h.le
  have hlt := h.lt
  have hceil := h.ceil
  have hq : (0 : K) ≤ (q : K) * 2 ^ u := mul_nonneg (Nat.cast_nonneg q) hp.le
  rw [add_mul, one_mul] at hlt
  refine ⟨⟨_, sgn_mul_int neg _ _⟩, ?_⟩
  have hrc : rc.toNat < 4 := rc.isLt
  unfold rounded roundsUp
  interval_cases rc.toNat
  · exact h.isNearest neg rfl
  · cases neg with
    | false =>
      simp only [Bool.and_false, Bool.false_eq_true, if_false, sgn_false, one_mul]
      exact ⟨hle, hlt⟩
    | true =>
      simp only [Bool.and_true, sgn_true, neg_one_mul]
      exact ⟨neg_le_neg hceil.1, by linarith [hceil.2]⟩
  · cases neg with
    | false =>
      simp only [Bool.not_false, Bool.and_true, sgn_false, one_mul]
      exact hceil
    | true =>
      simp only [Bool.not_true, Bool.and_false, Bool.false_eq_true, if_false, sgn_true, neg_one_mul]
      exact ⟨neg_le_neg hle, by linarith⟩
  · simp only [Bool.false_eq_true, if_false, abs_sgn_mul]
    have ha := hq.trans hle
    rw [abs_of_nonneg hq, abs_of_nonneg ha]
    refine ⟨hle, hlt, ?_⟩
    rw [mul_mul_mul_comm, sgn_mul_self, one_mul]
    exact mul_nonneg hq ha

/-! `roundAt`. -/

/-- The whole units and the rest of a magnitude at or above the unit: there is no rest. -/
theorem unitsIn_shift {m : Nat} {e u : ℤ} (hu : u ≤ e) :
    UnitsIn ((m : K) * 2 ^ e) u (m <<< (e - u).toNat) false .lt := by
  have hp : (0 : K) < 2 ^ u := zpow_pos two_pos _
  have hq : ((m <<< (e - u).toNat : Nat) : K) * 2 ^ u = (m : K) * 2 ^ e := by
    rw [Nat.shiftLeft_eq, Nat.cast_mul, Nat.cast_pow, Nat.cast_ofNat, mul_assoc, ← zpow_natCast,
      Int.toNat_of_nonneg (sub_nonneg.2 hu), ← zpow_add₀ two_ne_zero, sub_add_cancel]
  refine ⟨hq.le, ?_, by simp [hq], ?_⟩
  · rw [add_mul, hq, one_mul]
    exact lt_add_of_pos_right _ hp
  · rw [hq, sub_self, mul_zero]
    exact (compare_lt_iff_lt.2 hp).symm

/-- Below the unit: m is q units of 2^d and a rest; the number is m, or between m and m + 1 where it is sticky. -/
theorem unitsIn_divide {v : Mag} {a : K} (h : v.Rep a) {d : Nat} :
    UnitsIn a (v.e + (d + 1 : Nat)) (v.m >>> (d + 1)) (v.m % 2 ^ (d + 1) != 0 || v.sticky)
      (if v.sticky && v.m % 2 ^ (d + 1) == 2 ^ d then .gt else compare (v.m % 2 ^ (d + 1)) (2 ^ d)) := by
  obtain ⟨m, e, sticky⟩ := v
  simp only [Nat.shiftRight_eq_div_pow]
  have hE : (0 : K) < 2 ^ e := zpow_pos two_pos _
  have hU : (2 : K) ^ (e + ((d + 1 : Nat) : ℤ)) = 2 * 2 ^ d * 2 ^ e := by
    rw [zpow_add₀ two_ne_zero, zpow_natCast, pow_succ']
    ring
  generalize hq : m / 2 ^ (d + 1) = q
  generalize hr : m % 2 ^ (d + 1) = r
  have hm : m = 2 * 2 ^ d * q + r := by rw [← hq, ← hr, ← pow_succ', Nat.div_add_mod]
  have hrlt : r + 1 ≤ 2 * 2 ^ d := by rw [← pow_succ', ← hr]; exact Nat.mod_lt _ (by positivity)
  have hmK : (m : K) = 2 * 2 ^ d * q + r := by rw [hm]; push_cast; ring
  have hrK : (r : K) + 1 ≤ 2 * 2 ^ d := by exact_mod_cast hrlt
  have hle : (m : K) * 2 ^ e ≤ a := h.le
  have hlt : a < (m + 1 : K) * 2 ^ e := h.lt
  have hr0 : (0 : K) ≤ r * 2 ^ e := mul_nonneg (Nat.cast_nonneg r) hE.le
  have hrE : ((r : K) + 1) * 2 ^ e ≤ 2 * 2 ^ d * 2 ^ e := mul_le_mul_of_nonneg_right hrK hE.le
  rw [hmK] at hle hlt
  have hrest : 2 * (a - q * (2 * 2 ^ d * 2 ^ e)) = 2 * (a - 2 * 2 ^ d * q * 2 ^ e) := by ring
  refine ⟨?_, ?_, ?_, ?_⟩
  · rw [hU]; linarith
  · rw [hU]; linarith
  · rw [hU]
    cases sticky with
    | true =>
      have hst : (m : K) * 2 ^ e < a := h.1
      rw [hmK] at hst
      simp only [Bool.or_true, true_iff]
      exact ne_of_gt (by linarith)
    | false =>
      have ha : a = (m : K) * 2 ^ e := h
      rw [Bool.or_false, bne_iff_ne, ha, hmK, not_iff_not, add_mul]
      constructor
      · rintro rfl
        rw [Nat.cast_zero, zero_mul, add_zero]
        ring
      · intro heq
        have hz : (r : K) * 2 ^ e = 0 := by linarith
        exact_mod_cast (mul_eq_zero.1 hz).resolve_right hE.ne'
  · rw [hU, hrest]
    cases sticky with
    | true =>
      have hst : (m : K) * 2 ^ e < a ∧ a < (m + 1 : K) * 2 ^ e := h
      rw [hmK] at hst
      obtain ⟨hst1, hst2⟩ := hst
      rcases le_or_gt (2 ^ d) r with hc | hc
      · have hcE : (2 : K) ^ d * 2 ^ e ≤ r * 2 ^ e := mul_le_mul_of_nonneg_right (by exact_mod_cast hc) hE.le
        rw [compare_gt_iff_gt.2 (show (2 : K) * 2 ^ d * 2 ^ e < 2 * (a - 2 * 2 ^ d * q * 2 ^ e) by linarith)]
        rcases hc.eq_or_lt with hc | hc
        · simp [hc]
        · rw [compare_gt_iff_gt.2 hc, ite_self]
      · have hcE : ((r : K) + 1) * 2 ^ e ≤ 2 ^ d * 2 ^ e := mul_le_mul_of_nonneg_right (by exact_mod_cast hc) hE.le
        rw [compare_lt_iff_lt.2 (show 2 * (a - 2 * 2 ^ d * q * 2 ^ e) < (2 : K) * 2 ^ d * 2 ^ e by linarith),
          compare_lt_iff_lt.2 hc, beq_false_of_ne hc.ne]
        rfl
    | false =>
      have ha : a = (m : K) * 2 ^ e := h
      have hval : 2 * (a - 2 * 2 ^ d * q * 2 ^ e) = 2 * (r * 2 ^ e) := by rw [ha, hmK]; ring
      rw [hval, mul_assoc, Bool.false_and, if_neg Bool.false_ne_true]
      rcases lt_trichotomy r (2 ^ d) with hc | hc | hc
      · have hcE : (r : K) * 2 ^ e < 2 ^ d * 2 ^ e := mul_lt_mul_of_pos_right (by exact_mod_cast hc) hE
        rw [compare_lt_iff_lt.2 hc, compare_lt_iff_lt.2 (by linarith)]
      · rw [compare_eq_iff_eq.2 hc, compare_eq_iff_eq.2 (by rw [hc]; push_cast; ring)]
      · have hcE : (2 : K) ^ d * 2 ^ e < r * 2 ^ e := mul_lt_mul_of_pos_right (by exact_mod_cast hc) hE
        rw [compare_gt_iff_gt.2 hc, compare_gt_iff_gt.2 (by linarith)]

/-- What `roundAt` computes is the number of whole units and the rest; a sticky magnitude must lie below the unit. -/
theorem roundAt_units {v : Mag} {a : K} (h : v.Rep a) (rc : BitVec 2) (neg : Bool) {u : ℤ}
    (hs : v.sticky = true → v.e < u) :
    ∃ q inexact half, UnitsIn a u q inexact half ∧
      roundAt rc neg u v =
        { q := rounded rc neg q inexact half, inexact := inexact, up := roundsUp rc neg q inexact half } := by
  refine ⟨_, _, _, ?_, rfl⟩
  by_cases hu : u ≤ v.e
  · have hst : v.sticky = false := Bool.eq_false_iff.2 fun hst => absurd (hs hst) (not_lt.2 hu)
    have ha : a = (v.m : K) * 2 ^ v.e := by simpa [Mag.Rep, hst] using h
    rw [if_pos hu, if_pos hu, if_pos hu, hst, ha]
    exact unitsIn_shift hu
  · obtain ⟨d, hd⟩ : ∃ d : Nat, u = v.e + (d + 1 : Nat) := ⟨(u - v.e).toNat - 1, by omega⟩
    have hd' : (u - v.e).toNat = d + 1 := by omega
    rw [if_neg hu, if_neg hu, if_neg hu, hd', hd]
    exact unitsIn_divide h

/-- What a rounding of the magnitude a to multiples of 2^u gives (R161). -/
structure RoundsTo (rc : BitVec 2) (neg : Bool) (u : ℤ) (a : K) (r : Rounded) : Prop where
  isRounding : IsRounding rc (sgn neg * a) u (sgn neg * ((r.q : K) * 2 ^ u))
  inexact : r.inexact = true ↔ (r.q : K) * 2 ^ u ≠ a
  up : r.up = true ↔ a < (r.q : K) * 2 ^ u
  ge : ∀ n : Nat, (n : K) * 2 ^ u ≤ a → n ≤ r.q
  le : ∀ n : Nat, a < (n : K) * 2 ^ u → r.q ≤ n

theorem roundAt_roundsTo {v : Mag} {a : K} (h : v.Rep a) (rc : BitVec 2) (neg : Bool) {u : ℤ}
    (hs : v.sticky = true → v.e < u) : RoundsTo rc neg u a (roundAt rc neg u v) := by
  have hp : (0 : K) < 2 ^ u := zpow_pos two_pos _
  obtain ⟨q, inexact, half, hu, hr⟩ := roundAt_units h rc neg hs
  rw [hr]
  have hq : q ≤ rounded rc neg q inexact half ∧ rounded rc neg q inexact half ≤ q + 1 := by
    unfold rounded
    split <;> omega
  refine ⟨hu.isRounding rc neg, hu.inexact_iff rc neg, hu.up_iff rc neg, fun n hn => ?_, fun n hn => ?_⟩
  · have : (n : K) < q + 1 := lt_of_mul_lt_mul_right (hn.trans_lt hu.lt) hp.le
    have : n < q + 1 := by exact_mod_cast this
    exact (Nat.le_of_lt_succ this).trans hq.1
  · have : (q : K) < n := lt_of_mul_lt_mul_right (hu.le.trans_lt hn) hp.le
    have : q < n := by exact_mod_cast this
    exact hq.2.trans this

/-! The rounding is unique. -/

theorem eq_of_abs_lt {u n m : ℤ} (h : |(n : K) * 2 ^ u - m * 2 ^ u| < (2 : K) ^ u) : n = m := by
  have hp : (0 : K) < 2 ^ u := zpow_pos two_pos _
  rw [← sub_mul, abs_mul, abs_of_pos hp] at h
  have h1 : |(n : K) - m| < 1 := lt_of_mul_lt_mul_right (by rwa [one_mul]) hp.le
  have h2 : |n - m| < 1 := by exact_mod_cast h1
  have h3 := Int.abs_lt_one_iff.1 h2
  omega

theorem IsRounding.unique {rc : BitVec 2} {v : K} {u : ℤ} {y z : K} (hy : IsRounding rc v u y)
    (hz : IsRounding rc v u z) : y = z := by
  have hp : (0 : K) < 2 ^ u := zpow_pos two_pos _
  have hrc : rc.toNat < 4 := rc.isLt
  obtain ⟨⟨n, hn⟩, hy⟩ := hy
  obtain ⟨⟨m, hm⟩, hz⟩ := hz
  interval_cases rc.toNat
  · obtain ⟨hy1, hy2⟩ := hy
    obtain ⟨hz1, hz2⟩ := hz
    have htri : |y - z| ≤ |y - v| + |z - v| := by rw [abs_sub_comm z v]; exact abs_sub_le y v z
    rcases lt_or_ge (|y - z|) ((2 : K) ^ u) with hlt | hge
    · have : n = m := eq_of_abs_lt (K := K) (u := u) (by rwa [← hn, ← hm])
      rw [hn, hm, this]
    · obtain ⟨k, hk⟩ := hy2 (by linarith)
      obtain ⟨l, hl⟩ := hz2 (by linarith)
      have h2 : (2 : K) ^ (u + 1) = 2 * 2 ^ u := by rw [zpow_add_one₀ two_ne_zero, mul_comm]
      have : k = l := eq_of_abs_lt (K := K) (u := u + 1) (by
        rw [h2, show (k : K) * (2 * 2 ^ u) = y by rw [hk]; ring, show (l : K) * (2 * 2 ^ u) = z by rw [hl]; ring]
        linarith)
      rw [hk, hl, this]
  · have : n = m := eq_of_abs_lt (K := K) (u := u) (by rw [← hn, ← hm, abs_lt]; constructor <;> linarith [hy.1, hy.2, hz.1, hz.2])
    rw [hn, hm, this]
  · have : n = m := eq_of_abs_lt (K := K) (u := u) (by rw [← hn, ← hm, abs_lt]; constructor <;> linarith [hy.1, hy.2, hz.1, hz.2])
    rw [hn, hm, this]
  · obtain ⟨hy1, hy2, hy3⟩ := hy
    obtain ⟨hz1, hz2, hz3⟩ := hz
    have hn' : |y| = (|n| : ℤ) * (2 : K) ^ u := by rw [hn, abs_mul, abs_of_pos hp, Int.cast_abs]
    have hm' : |z| = (|m| : ℤ) * (2 : K) ^ u := by rw [hm, abs_mul, abs_of_pos hp, Int.cast_abs]
    have habs : |y| = |z| := by
      have : |n| = |m| := eq_of_abs_lt (K := K) (u := u) (by rw [← hn', ← hm', abs_lt]; constructor <;> linarith)
      rw [hn', hm', this]
    rcases abs_eq_abs.1 habs with h | h
    · exact h
    · have hz0 : z * v = 0 := by
        rw [h, neg_mul] at hy3
        linarith
      rcases mul_eq_zero.1 hz0 with h0 | h0
      · rw [h, h0, neg_zero]
      · rw [h0, abs_zero] at hy1 hz1
        rw [abs_nonpos_iff.1 hy1, abs_nonpos_iff.1 hz1]

/-! Exponents. -/

theorem two_zpow_le_two_zpow {j k : ℤ} : (2 : K) ^ j ≤ 2 ^ k ↔ j ≤ k := zpow_le_zpow_iff_right₀ one_lt_two

theorem two_zpow_lt_two_zpow {j k : ℤ} : (2 : K) ^ j < 2 ^ k ↔ j < k := zpow_lt_zpow_iff_right₀ one_lt_two

/-- floor(log2) of a multiple of a power of two. -/
theorem nat_zpow_bounds {q : Nat} (hq : q ≠ 0) (u : ℤ) :
    (2 : K) ^ (q.log2 + u : ℤ) ≤ q * 2 ^ u ∧ (q : K) * 2 ^ u < 2 ^ (q.log2 + u + 1 : ℤ) := by
  have hp : (0 : K) < 2 ^ u := zpow_pos two_pos _
  constructor
  · rw [zpow_add₀ two_ne_zero, zpow_natCast]
    exact mul_le_mul_of_nonneg_right (by exact_mod_cast Nat.log2_self_le hq) hp.le
  · rw [add_right_comm, zpow_add₀ two_ne_zero, show (q.log2 : ℤ) + 1 = ((q.log2 + 1 : Nat) : ℤ) by push_cast; ring,
      zpow_natCast]
    exact mul_lt_mul_of_pos_right (by exact_mod_cast Nat.lt_log2_self) hp

theorem le_log2_add_iff {q : Nat} (hq : q ≠ 0) (u k : ℤ) : k ≤ q.log2 + u ↔ (2 : K) ^ k ≤ q * 2 ^ u := by
  obtain ⟨h1, h2⟩ := nat_zpow_bounds (K := K) hq u
  constructor
  · exact fun h => (two_zpow_le_two_zpow.2 h).trans h1
  · exact fun h => Int.lt_add_one_iff.1 (two_zpow_lt_two_zpow.1 (h.trans_lt h2))

theorem log2_add_lt_iff {q : Nat} (hq : q ≠ 0) (u k : ℤ) : q.log2 + u < k ↔ (q : K) * 2 ^ u < 2 ^ k := by
  rw [← not_le, le_log2_add_iff (K := K) hq, not_le]

/-- floor(log2) of the number a magnitude stands for. -/
theorem Mag.Rep.log2_bounds {v : Mag} {a : K} (h : v.Rep a) (hm : v.m ≠ 0) :
    (2 : K) ^ v.log2 ≤ a ∧ a < 2 ^ (v.log2 + 1) := by
  have hp : (0 : K) < 2 ^ v.e := zpow_pos two_pos _
  obtain ⟨h1, -⟩ := nat_zpow_bounds (K := K) hm v.e
  rw [Mag.log2, add_comm v.e]
  refine ⟨h1.trans h.le, h.lt.trans_le ?_⟩
  rw [add_right_comm, zpow_add₀ two_ne_zero, show (v.m.log2 : ℤ) + 1 = ((v.m.log2 + 1 : Nat) : ℤ) by push_cast; ring,
    zpow_natCast]
  exact mul_le_mul_of_nonneg_right (by exact_mod_cast Nat.lt_log2_self) hp.le

theorem log_eq_of_bounds [FloorSemiring K] {a : K} {k : ℤ} (h1 : (2 : K) ^ k ≤ a) (h2 : a < 2 ^ (k + 1)) :
    Int.log 2 a = k := by
  have ha : 0 < a := (zpow_pos two_pos k).trans_le h1
  have h1' : k ≤ Int.log 2 a := (Int.zpow_le_iff_le_log one_lt_two ha).1 (by exact_mod_cast h1)
  have h2' : Int.log 2 a < k + 1 := (Int.lt_zpow_iff_log_lt one_lt_two ha).1 (by exact_mod_cast h2)
  omega

theorem Mag.Rep.log_eq [FloorSemiring K] {v : Mag} {a : K} (h : v.Rep a) (hm : v.m ≠ 0) : Int.log 2 a = v.log2 :=
  log_eq_of_bounds (h.log2_bounds hm).1 (h.log2_bounds hm).2

/-- A number rounded to p bits has p bits, or is the next power of two. -/
theorem RoundsTo.bits {rc : BitVec 2} {neg : Bool} {k : ℤ} {p : Nat} {a : K} {r : Rounded}
    (h : RoundsTo rc neg (k - p + 1) a r) (hp : 1 ≤ p) (h1 : (2 : K) ^ k ≤ a) (h2 : a < 2 ^ (k + 1)) :
    2 ^ (p - 1) ≤ r.q ∧ r.q ≤ 2 ^ p := by
  constructor
  · refine h.ge _ (le_trans (le_of_eq ?_) h1)
    push_cast
    rw [← zpow_natCast, ← zpow_add₀ two_ne_zero]
    congr 1
    omega
  · refine h.le _ (h2.trans_le (le_of_eq ?_))
    push_cast
    rw [← zpow_natCast, ← zpow_add₀ two_ne_zero]
    congr 1
    omega

end

end Sys2Proof.Machine
end

section
/-! PROOFS. Patterns (spec/40_numerics_common.md R141 to R143): sign, class and value of the patterns the model builds, and
what the class of a pattern says of its value. -/

namespace Sys2Proof.Machine

/-! The fields of a pattern. -/

theorem ext_toNat (s : Bool) (e m : Nat) :
    (ext s e m).toNat = s.toNat * 2 ^ 79 + e % 2 ^ 15 * 2 ^ 64 + m % 2 ^ 64 := by
  have h1 : m % 2 ^ 64 < 2 ^ 64 := Nat.mod_lt _ (by norm_num)
  have h2 : e % 2 ^ 15 < 2 ^ 15 := Nat.mod_lt _ (by norm_num)
  simp only [ext, BitVec.toNat_append, BitVec.toNat_ofNat, BitVec.toNat_ofBool]
  rw [← Nat.shiftLeft_add_eq_or_of_lt h2, ← Nat.shiftLeft_add_eq_or_of_lt h1, Nat.shiftLeft_eq, Nat.shiftLeft_eq]
  omega

theorem bexp_eq (x : Ext) : bexp x = x.toNat / 2 ^ 64 % 2 ^ 15 := by
  rw [bexp, BitVec.extractLsb'_toNat, Nat.shiftRight_eq_div_pow]

theorem sig_eq (x : Ext) : sig x = x.toNat % 2 ^ 64 := by
  rw [sig, BitVec.extractLsb'_toNat, Nat.shiftRight_zero]

theorem signOf_eq (x : Ext) : (signOf x).toNat = x.toNat / 2 ^ 79 := by
  have hx := x.isLt
  rw [signOf, BitVec.getLsbD, Nat.testBit_eq_decide_div_mod_eq]
  by_cases h : x.toNat / 2 ^ 79 % 2 = 1
  · simp only [h, decide_true, Bool.toNat_true]; omega
  · simp only [h, decide_false, Bool.toNat_false]; omega

theorem sig_lt (x : Ext) : sig x < 2 ^ 64 := by rw [sig_eq]; exact Nat.mod_lt _ (by norm_num)

theorem bexp_lt (x : Ext) : bexp x < 2 ^ 15 := by rw [bexp_eq]; exact Nat.mod_lt _ (by norm_num)

@[simp] theorem signOf_ext (s : Bool) (e m : Nat) : signOf (ext s e m) = s := by
  have h := signOf_eq (ext s e m)
  rw [ext_toNat] at h
  have h1 : m % 2 ^ 64 < 2 ^ 64 := Nat.mod_lt _ (by norm_num)
  have h2 : e % 2 ^ 15 < 2 ^ 15 := Nat.mod_lt _ (by norm_num)
  have hs : (signOf (ext s e m)).toNat = s.toNat := by omega
  revert hs
  cases signOf (ext s e m) <;> cases s <;> simp

theorem bexp_ext (s : Bool) {e : Nat} (h : e < 2 ^ 15) (m : Nat) : bexp (ext s e m) = e := by
  have h1 : m % 2 ^ 64 < 2 ^ 64 := Nat.mod_lt _ (by norm_num)
  rw [bexp_eq, ext_toNat]
  omega

theorem sig_ext (s : Bool) (e : Nat) {m : Nat} (h : m < 2 ^ 64) : sig (ext s e m) = m := by
  rw [sig_eq, ext_toNat]
  omega

/-- A pattern is its three fields (R141). -/
theorem ext_fields (x : Ext) : ext (signOf x) (bexp x) (sig x) = x := by
  refine BitVec.eq_of_toNat_eq ?_
  have hx := x.isLt
  rw [ext_toNat, signOf_eq, bexp_eq, sig_eq]
  omega

theorem ext_inj {x y : Ext} (h1 : signOf x = signOf y) (h2 : bexp x = bexp y) (h3 : sig x = sig y) : x = y := by
  rw [← ext_fields x, ← ext_fields y, h1, h2, h3]

/-! Values. -/

theorem val_eq (x : Ext) : val x = sgn (signOf x) * ((sig x : ℚ) * 2 ^ trueExp x) := by
  rw [val, sgn, trueExp, mul_assoc]

theorem abs_val (x : Ext) : |val x| = (sig x : ℚ) * 2 ^ trueExp x := by
  rw [val_eq, abs_sgn_mul, abs_of_nonneg (by positivity)]

theorem val_eq_sgn (x : Ext) : val x = sgn (signOf x) * |val x| := by rw [abs_val, ← val_eq]

theorem val_eq_zero_iff (x : Ext) : val x = 0 ↔ sig x = 0 := by
  rw [← abs_eq_zero, abs_val, mul_eq_zero, or_iff_left (zpow_pos two_pos _).ne', Nat.cast_eq_zero]

theorem magOf_rep (x : Ext) : (magOf x).Rep |val x| := abs_val x

theorem val_neg_iff {x : Ext} (h : val x ≠ 0) : val x < 0 ↔ signOf x = true := by
  have hpos : 0 < |val x| := abs_pos.2 h
  rw [val_eq_sgn]
  cases signOf x with
  | true => simpa using hpos
  | false => simp

theorem val_pos_iff {x : Ext} (h : val x ≠ 0) : 0 < val x ↔ signOf x = false := by
  have hpos : 0 < |val x| := abs_pos.2 h
  rw [val_eq_sgn]
  cases signOf x with
  | true => simp
  | false => simpa using hpos

theorem trueExp_le (x : Ext) (h : bexp x < 0x7FFF) : trueExp x ≤ 16320 := by
  unfold trueExp
  omega

theorem le_trueExp (x : Ext) : -16445 ≤ trueExp x := by
  unfold trueExp
  omega

/-! Classes (R142). -/

theorem classOf_zero_iff (x : Ext) : classOf x = .zero ↔ bexp x = 0 ∧ sig x = 0 := by
  unfold classOf
  split_ifs <;> simp_all

theorem classOf_denormal_iff (x : Ext) : classOf x = .denormal ↔ bexp x = 0 ∧ sig x ≠ 0 := by
  unfold classOf
  split_ifs <;> simp_all

theorem classOf_normal_iff (x : Ext) : classOf x = .normal ↔ 1 ≤ bexp x ∧ bexp x < 0x7FFF ∧ 2 ^ 63 ≤ sig x := by
  unfold classOf
  split_ifs <;> simp_all
  omega

theorem classOf_infinity_iff (x : Ext) : classOf x = .infinity ↔ bexp x = 0x7FFF ∧ sig x = 2 ^ 63 := by
  have := bexp_lt x
  unfold classOf
  split_ifs <;> simp_all <;> omega

theorem finite_iff (x : Ext) : finite x = true ↔ bexp x = 0 ∨ (bexp x < 0x7FFF ∧ 2 ^ 63 ≤ sig x) := by
  simp only [finite, Bool.or_eq_true, beq_iff_eq, classOf_zero_iff, classOf_denormal_iff, classOf_normal_iff]
  omega

theorem finite_of_normal {x : Ext} (h : classOf x = .normal) : finite x = true := by simp [finite, h]

/-- A finite pattern is a zero exactly when its value is 0. -/
theorem classOf_zero_iff_val {x : Ext} (h : finite x = true) : classOf x = .zero ↔ val x = 0 := by
  rw [classOf_zero_iff, val_eq_zero_iff]
  rw [finite_iff] at h
  omega

theorem classOf_of_finite {x : Ext} (h : finite x = true) (hv : val x ≠ 0) :
    classOf x = .denormal ∨ classOf x = .normal := by
  have hz : classOf x ≠ .zero := fun hz => hv ((classOf_zero_iff_val h).1 hz)
  simpa [finite, hz] using h

theorem bexp_lt_of_finite {x : Ext} (h : finite x = true) : bexp x < 0x7FFF := by
  rw [finite_iff] at h
  omega

/-- A finite pattern's magnitude is below 2^16384 (R143). -/
theorem abs_val_lt {x : Ext} (h : finite x = true) : |val x| < (2 : ℚ) ^ (16384 : ℤ) := by
  rw [abs_val]
  have h1 : (sig x : ℚ) < 2 ^ (64 : ℤ) := by exact_mod_cast sig_lt x
  have h2 : (2 : ℚ) ^ trueExp x ≤ 2 ^ (16320 : ℤ) := two_zpow_le_two_zpow.2 (trueExp_le x (bexp_lt_of_finite h))
  calc (sig x : ℚ) * 2 ^ trueExp x < 2 ^ (64 : ℤ) * 2 ^ trueExp x := mul_lt_mul_of_pos_right h1 (zpow_pos two_pos _)
    _ ≤ 2 ^ (64 : ℤ) * 2 ^ (16320 : ℤ) := mul_le_mul_of_nonneg_left h2 (by positivity)
    _ = 2 ^ (16384 : ℤ) := by rw [← zpow_add₀ two_ne_zero]; norm_num

/-- A finite pattern is a multiple of the smallest denormal (R143). -/
theorem le_abs_val {x : Ext} (h : val x ≠ 0) : (2 : ℚ) ^ (-16445 : ℤ) ≤ |val x| := by
  rw [abs_val]
  have h1 : (1 : ℚ) ≤ sig x := by
    exact_mod_cast Nat.one_le_iff_ne_zero.2 fun h0 => h ((val_eq_zero_iff x).2 h0)
  have h2 : (2 : ℚ) ^ (-16445 : ℤ) ≤ 2 ^ trueExp x := two_zpow_le_two_zpow.2 (le_trueExp x)
  calc (2 : ℚ) ^ (-16445 : ℤ) ≤ 2 ^ trueExp x := h2
    _ ≤ sig x * 2 ^ trueExp x := le_mul_of_one_le_left (by positivity) h1

/-! The patterns of results. -/

theorem classOf_ext_normal (s : Bool) {e m : Nat} (h1 : 1 ≤ e) (h2 : e < 0x7FFF) (h3 : 2 ^ 63 ≤ m) (h4 : m < 2 ^ 64) :
    classOf (ext s e m) = .normal := by
  rw [classOf_normal_iff, bexp_ext s (by omega), sig_ext s e h4]
  exact ⟨h1, h2, h3⟩

theorem val_ext (s : Bool) {e m : Nat} (h1 : 1 ≤ e) (h2 : e < 2 ^ 15) (h3 : m < 2 ^ 64) :
    val (ext s e m) = sgn s * ((m : ℚ) * 2 ^ (e - 16446 : ℤ)) := by
  rw [val_eq, signOf_ext, sig_ext s e h3, trueExp, bexp_ext s h2, Nat.max_eq_left h1]

/-- The significand of a number of at most 65 bits, its top bit at bit 63. -/
def normalSig (q : Nat) : Nat := if q.log2 ≤ 63 then q <<< (63 - q.log2) else q >>> (q.log2 - 63)

theorem encodeNormal_eq (s : Bool) (q : Nat) (u : Int) :
    encodeNormal s q u = ext s (q.log2 + u + 16383).toNat (normalSig q) := rfl

/-- q fits the 64 bits of a significand, or is the power of two above them. -/
def Fits (q : Nat) : Prop := q ≠ 0 ∧ q ≤ 2 ^ 64

theorem normalSig_spec {q : Nat} (h : Fits q) :
    2 ^ 63 ≤ normalSig q ∧ normalSig q < 2 ^ 64 ∧ (normalSig q : ℚ) * 2 ^ (q.log2 - 63 : ℤ) = q := by
  obtain ⟨h0, h64⟩ := h
  have hlo := Nat.log2_self_le h0
  have hhi := Nat.lt_log2_self (n := q)
  unfold normalSig
  split
  case isTrue hl =>
    have hpow : 2 ^ q.log2 * 2 ^ (63 - q.log2) = 2 ^ 63 := by rw [← pow_add]; congr 1; omega
    have hpos : 0 < 2 ^ (63 - q.log2) := by positivity
    rw [Nat.shiftLeft_eq]
    refine ⟨?_, ?_, ?_⟩
    · rw [← hpow]; exact Nat.mul_le_mul_right _ hlo
    · have h2 : q * 2 ^ (63 - q.log2) < 2 ^ (q.log2 + 1) * 2 ^ (63 - q.log2) := Nat.mul_lt_mul_of_pos_right hhi hpos
      rw [pow_succ, mul_assoc, mul_comm 2, ← mul_assoc, hpow] at h2
      omega
    · push_cast
      rw [mul_assoc, ← zpow_natCast, ← zpow_add₀ two_ne_zero, Nat.cast_sub hl]
      norm_num
  case isFalse hl =>
    have hq : q = 2 ^ 64 := by
      have : 2 ^ 64 ≤ 2 ^ q.log2 := Nat.pow_le_pow_right (by norm_num) (by omega)
      omega
    have hlog : q.log2 = 64 := by rw [hq]; exact Nat.log2_two_pow
    rw [hlog, hq, Nat.shiftRight_eq_div_pow]
    norm_num

theorem encodeNormal_spec (s : Bool) {q : Nat} (h : Fits q) {u : ℤ} (h1 : -16382 ≤ q.log2 + u)
    (h2 : q.log2 + u < 16384) :
    classOf (encodeNormal s q u) = .normal ∧ signOf (encodeNormal s q u) = s ∧
      val (encodeNormal s q u) = sgn s * ((q : ℚ) * 2 ^ u) := by
  obtain ⟨hlo, hhi, hv⟩ := normalSig_spec h
  rw [encodeNormal_eq]
  refine ⟨classOf_ext_normal s (by omega) (by omega) hlo hhi, signOf_ext _ _ _, ?_⟩
  rw [val_ext s (by omega) (by omega) hhi, Int.toNat_of_nonneg (by omega), ← hv, mul_assoc, ← zpow_add₀ two_ne_zero]
  congr 3
  ring

/-! Zeros, infinities and integers. -/

theorem zeroOf_eq (s : Bool) : zeroOf s = zeroBits s := by cases s <;> rfl
theorem infinity_eq (s : Bool) : infinity s = infinityBits s := by cases s <;> rfl

theorem zeroOf_spec (s : Bool) : classOf (zeroOf s) = .zero ∧ signOf (zeroOf s) = s ∧ val (zeroOf s) = 0 := by
  refine ⟨?_, signOf_ext _ _ _, ?_⟩
  · cases s <;> decide
  · rw [val_eq_zero_iff]
    exact sig_ext _ _ (by norm_num)

theorem finite_zeroOf (s : Bool) : finite (zeroOf s) = true := by simp [finite, (zeroOf_spec s).1]

/-- An integer below 2^64 (or 2^64 itself) as a pattern. -/
theorem encodeNat_spec (s : Bool) {q : Nat} (h : q ≤ 2 ^ 64) :
    finite (encodeNat s q) = true ∧ signOf (encodeNat s q) = s ∧ val (encodeNat s q) = sgn s * (q : ℚ) := by
  unfold encodeNat
  split
  case isTrue h0 =>
    obtain ⟨-, h2, h3⟩ := zeroOf_spec s
    exact ⟨finite_zeroOf s, h2, by rw [h3, h0]; simp⟩
  case isFalse h0 =>
    have hlog : q.log2 ≤ 64 := by
      by_contra hc
      have h1 := Nat.log2_self_le h0
      have : 2 ^ 65 ≤ 2 ^ q.log2 := Nat.pow_le_pow_right (by norm_num) (by omega)
      omega
    obtain ⟨h1, h2, h3⟩ := encodeNormal_spec s ⟨h0, h⟩ (u := 0) (by omega) (by omega)
    exact ⟨finite_of_normal h1, h2, by rw [h3]; simp⟩

end Sys2Proof.Machine
end

section
/-! PROOFS. The delivery of a result to a register (spec/40_numerics_common.md R161 to R165, R178): rounded, overflowed or
underflowed, masked and unmasked. -/

namespace Sys2Proof.Machine

theorem eq_decide_of_iff {b : Bool} {P : Prop} [Decidable P] (h : b = true ↔ P) : b = decide P := by
  by_cases hP : P
  · rw [h.2 hP, decide_eq_true hP]
  · rw [decide_eq_false hP]
    exact Bool.eq_false_iff.2 fun hb => hP (h.1 hb)

section

variable {K : Type} [Field K] [LinearOrder K] [IsStrictOrderedRing K]

/-- What is rounded to p bits: a positive number and the magnitude that stands for it, sticky only with 66 bits. -/
structure Exactly (v : Mag) (p : Nat) (a : K) : Prop where
  rep : v.Rep a
  m_ne : v.m ≠ 0
  one_le : 1 ≤ p
  le : p ≤ 64
  sticky : v.sticky = true → 2 ^ 65 ≤ v.m

/-- y is the rounding of sgn neg * a that `r` describes. -/
structure Describes (neg : Bool) (u : ℤ) (a : K) (r : Rounded) (y : K) : Prop where
  eq : y = sgn neg * ((r.q : K) * 2 ^ u)
  abs : |y| = (r.q : K) * 2 ^ u
  inexact : r.inexact = true ↔ y ≠ sgn neg * a
  up : r.up = true ↔ |sgn neg * a| < |y|

theorem RoundsTo.describes {rc : BitVec 2} {neg : Bool} {u : ℤ} {a : K} {r : Rounded} (h : RoundsTo rc neg u a r)
    (ha : 0 ≤ a) {y : K} (hy : IsRounding rc (sgn neg * a) u y) : Describes neg u a r y := by
  have he := hy.unique h.isRounding
  have habs : |y| = (r.q : K) * 2 ^ u := by
    rw [he, abs_sgn_mul, abs_of_nonneg]
    exact mul_nonneg (Nat.cast_nonneg _) (zpow_pos two_pos _).le
  refine ⟨he, habs, ?_, ?_⟩
  · rw [h.inexact, he, Ne, Ne, sgn_mul_inj]
  · rw [h.up, habs, abs_sgn_mul, abs_of_nonneg ha]

namespace Exactly

variable {v : Mag} {p : Nat} {a : K}

theorem pos (h : Exactly v p a) : 0 < a := h.rep.pos h.m_ne

omit [IsStrictOrderedRing K] in
theorem e_lt (h : Exactly v p a) (hs : v.sticky = true) : v.e + 65 ≤ v.log2 := by
  have : 65 ≤ v.m.log2 := by
    by_contra hc
    have h1 := h.sticky hs
    have h2 := Nat.lt_log2_self (n := v.m)
    have : 2 ^ (v.m.log2 + 1) ≤ 2 ^ 65 := Nat.pow_le_pow_right (by norm_num) (by omega)
    omega
  unfold Mag.log2
  omega

theorem roundsTo (h : Exactly v p a) (rc : BitVec 2) (neg : Bool) :
    RoundsTo rc neg (v.log2 - p + 1) a (roundTo rc neg p v) :=
  roundAt_roundsTo h.rep rc neg fun hs => by have := h.e_lt hs; have := h.le; omega

theorem bits (h : Exactly v p a) (rc : BitVec 2) (neg : Bool) :
    2 ^ (p - 1) ≤ (roundTo rc neg p v).q ∧ (roundTo rc neg p v).q ≤ 2 ^ p :=
  (h.roundsTo rc neg).bits h.one_le (h.rep.log2_bounds h.m_ne).1 (h.rep.log2_bounds h.m_ne).2

theorem fits (h : Exactly v p a) (rc : BitVec 2) (neg : Bool) : Fits (roundTo rc neg p v).q := by
  obtain ⟨h1, h2⟩ := h.bits rc neg
  have : 0 < 2 ^ (p - 1) := by positivity
  exact ⟨by omega, h2.trans (Nat.pow_le_pow_right (by norm_num) h.le)⟩

theorem describes (h : Exactly v p a) {rc : BitVec 2} {neg : Bool} {y : K}
    (hy : IsRounding rc (sgn neg * a) (v.log2 - p + 1) y) :
    Describes neg (v.log2 - p + 1) a (roundTo rc neg p v) y := (h.roundsTo rc neg).describes h.pos.le hy

/-- The exponent of the rounded number against a bound. -/
theorem le_exponent_iff (h : Exactly v p a) {rc : BitVec 2} {neg : Bool} {y : K}
    (hy : IsRounding rc (sgn neg * a) (v.log2 - p + 1) y) (k : ℤ) :
    k ≤ (roundTo rc neg p v).q.log2 + (v.log2 - p + 1) ↔ (2 : K) ^ k ≤ |y| := by
  rw [(h.describes hy).abs, le_log2_add_iff (K := K) (h.fits rc neg).1]

theorem exponent_lt_iff (h : Exactly v p a) {rc : BitVec 2} {neg : Bool} {y : K}
    (hy : IsRounding rc (sgn neg * a) (v.log2 - p + 1) y) (k : ℤ) :
    (roundTo rc neg p v).q.log2 + (v.log2 - p + 1) < k ↔ |y| < (2 : K) ^ k := by
  rw [← not_le, h.le_exponent_iff hy, not_le]

/-- A number that is not below 2^k rounds to one that is not. -/
theorem le_abs_of_le (h : Exactly v p a) {rc : BitVec 2} {neg : Bool} {y : K}
    (hy : IsRounding rc (sgn neg * a) (v.log2 - p + 1) y) {k : ℤ} (hk : (2 : K) ^ k ≤ a) : (2 : K) ^ k ≤ |y| := by
  have hlog : k ≤ v.log2 := Int.lt_add_one_iff.1 (two_zpow_lt_two_zpow.1 (hk.trans_lt (h.rep.log2_bounds h.m_ne).2))
  rw [← h.le_exponent_iff hy]
  have hq : p - 1 ≤ (roundTo rc neg p v).q.log2 :=
    (Nat.le_log2 (h.fits rc neg).1).2 (h.bits rc neg).1
  have := h.one_le
  omega

theorem log2_lt (h : Exactly v p a) {k : ℤ} (hk : a < (2 : K) ^ k) : v.log2 < k :=
  two_zpow_lt_two_zpow.1 ((h.rep.log2_bounds h.m_ne).1.trans_lt hk)

theorem le_log2 (h : Exactly v p a) {k : ℤ} (hk : (2 : K) ^ k ≤ a) : k ≤ v.log2 :=
  Int.lt_add_one_iff.1 (two_zpow_lt_two_zpow.1 (hk.trans_lt (h.rep.log2_bounds h.m_ne).2))

end Exactly

/-! The five ends of `deliver` (R163, R165, R178). -/

/-- A pattern for the number y: of the class normal, with its sign. -/
def NormalFor (neg : Bool) (y : K) (x : Ext) : Prop :=
  classOf x = .normal ∧ signOf x = neg ∧ ((val x : ℚ) : K) = y

theorem normalFor_encodeNormal {neg : Bool} {q : Nat} (h : Fits q) {u : ℤ} (h1 : -16382 ≤ q.log2 + u)
    (h2 : q.log2 + u < 16384) : NormalFor neg (sgn neg * ((q : K) * 2 ^ u)) (encodeNormal neg q u) := by
  obtain ⟨hc, hs, hv⟩ := encodeNormal_spec neg h h1 h2
  refine ⟨hc, hs, ?_⟩
  rw [hv]
  cases neg <;> simp

variable {v : Mag} {p : Nat} {a y : K} {cw : ControlWord} {neg : Bool}

/-- In range: rounded, with PE and C1 telling of the rounding. -/
theorem deliver_normal (h : Exactly v p a) (hy : IsRounding cw.rc (sgn neg * a) (v.log2 - p + 1) y)
    (hlo : (2 : K) ^ (-16382 : ℤ) ≤ a) (hhi : |y| < (2 : K) ^ (16384 : ℤ)) :
    ∃ pe up x, deliver cw p neg v = { signals := { pe := pe }, val := some x, c1 := .set up } ∧
      (pe = true ↔ y ≠ sgn neg * a) ∧ (up = true ↔ |sgn neg * a| < |y|) ∧ NormalFor neg y x := by
  have hd := h.describes hy
  have hlow := (h.le_exponent_iff hy _).2 (h.le_abs_of_le hy hlo)
  have hhigh := (h.exponent_lt_iff hy _).2 hhi
  have ht : isTiny (-16382) v (v.log2 - p + 1) (roundTo cw.rc neg p v) = false := by
    have := h.le_log2 hlo
    simp only [isTiny, Bool.or_eq_false_iff, Bool.and_eq_false_iff, decide_eq_false_iff_not]
    omega
  refine ⟨_, _, _, ?_, hd.inexact, hd.up, hd.eq ▸ normalFor_encodeNormal (h.fits cw.rc neg) hlow hhigh⟩
  unfold deliver
  simp only [not_le.2 hhigh, ht, if_false, Bool.false_eq_true]

theorem deliver_overflow (h : Exactly v p a) (hy : IsRounding cw.rc (sgn neg * a) (v.log2 - p + 1) y)
    (hhi : (2 : K) ^ (16384 : ℤ) ≤ |y|) :
    deliver cw p neg v = deliverOverflow cw p neg (v.log2 - p + 1) (roundTo cw.rc neg p v) := by
  unfold deliver
  simp only [(h.le_exponent_iff hy _).2 hhi, if_true]

/-- Overflow, unmasked: the rounded number over 2^24576, or infinity beyond the range of that (R163). -/
theorem deliver_overflow_unmasked (h : Exactly v p a) (hy : IsRounding cw.rc (sgn neg * a) (v.log2 - p + 1) y)
    (hhi : (2 : K) ^ (16384 : ℤ) ≤ |y|) (hom : cw.om = false) :
    ∃ pe up x, deliver cw p neg v = { signals := { oe := true, pe := pe }, val := some x, c1 := .set up } ∧
      (pe = true ↔ y ≠ sgn neg * a) ∧ (up = true ↔ |sgn neg * a| < |y|) ∧
      (|y| < (2 : K) ^ (16384 + 24576 : ℤ) → NormalFor neg (y / 2 ^ (24576 : ℤ)) x) ∧
      ((2 : K) ^ (16384 + 24576 : ℤ) ≤ |y| → x = infinity neg) := by
  have hd := h.describes hy
  rw [deliver_overflow h hy hhi, deliverOverflow, hom, if_neg Bool.false_ne_true]
  refine ⟨_, _, _, rfl, hd.inexact, hd.up, fun hlt => ?_, fun hge => ?_⟩
  · have h1 := (h.le_exponent_iff hy _).2 hhi
    have h2 := (h.exponent_lt_iff hy _).2 hlt
    rw [if_neg (by omega)]
    have hv : y / 2 ^ (24576 : ℤ) =
        sgn neg * (((roundTo cw.rc neg p v).q : K) * 2 ^ (v.log2 - p + 1 - 24576 : ℤ)) := by
      rw [zpow_sub₀ two_ne_zero (v.log2 - p + 1), hd.eq, mul_div_assoc, mul_div_assoc]
    rw [hv]
    exact normalFor_encodeNormal (h.fits cw.rc neg) (by omega) (by omega)
  · have h1 := (h.le_exponent_iff hy _).2 hge
    rw [if_pos (by omega)]

theorem deliver_underflow (h : Exactly v p a) (hy : IsRounding cw.rc (sgn neg * a) (v.log2 - p + 1) y)
    (hlo : |y| < (2 : K) ^ (-16382 : ℤ)) :
    deliver cw p neg v = deliverUnderflow cw p neg v (v.log2 - p + 1) (roundTo cw.rc neg p v) := by
  have h1 := (h.exponent_lt_iff hy _).2 hlo
  have ht : isTiny (-16382) v (v.log2 - p + 1) (roundTo cw.rc neg p v) = true := by
    simp only [isTiny, Bool.or_eq_true, decide_eq_true_eq]
    exact .inl h1
  have h2 : ¬16384 ≤ ((roundTo cw.rc neg p v).q.log2 : ℤ) + (v.log2 - p + 1) := by omega
  unfold deliver
  simp only [h2, ht, if_false, if_true]

/-- Underflow, unmasked: the rounded number times 2^24576, or a zero below the range of that (R165). -/
theorem deliver_underflow_unmasked (h : Exactly v p a) (hy : IsRounding cw.rc (sgn neg * a) (v.log2 - p + 1) y)
    (hlo : |y| < (2 : K) ^ (-16382 : ℤ)) (hum : cw.um = false) :
    ∃ pe up x, deliver cw p neg v = { signals := { ue := true, pe := pe }, val := some x, c1 := .set up } ∧
      (pe = true ↔ y ≠ sgn neg * a) ∧ (up = true ↔ |sgn neg * a| < |y|) ∧
      ((2 : K) ^ (-16382 - 24576 : ℤ) ≤ |y| → NormalFor neg (y * 2 ^ (24576 : ℤ)) x) ∧
      (|y| < (2 : K) ^ (-16382 - 24576 : ℤ) → x = zeroOf neg) := by
  have hd := h.describes hy
  rw [deliver_underflow h hy hlo, deliverUnderflow, hum, if_neg Bool.false_ne_true]
  refine ⟨_, _, _, rfl, hd.inexact, hd.up, fun hge => ?_, fun hlt => ?_⟩
  · have h1 := (h.exponent_lt_iff hy _).2 hlo
    have h2 := (h.le_exponent_iff hy _).2 hge
    rw [if_neg (by omega)]
    have hv : y * 2 ^ (24576 : ℤ) =
        sgn neg * (((roundTo cw.rc neg p v).q : K) * 2 ^ (v.log2 - p + 1 + 24576 : ℤ)) := by
      rw [zpow_add₀ two_ne_zero (v.log2 - p + 1), hd.eq, mul_assoc, mul_assoc]
    rw [hv]
    exact normalFor_encodeNormal (h.fits cw.rc neg) (by omega) (by omega)
  · have h1 := (h.exponent_lt_iff hy _).2 hlt
    rw [if_pos (by omega)]

/-- The pattern of a number below 2^-16382, or 2^-16382 itself: m units of the smallest denormal. -/
theorem ext_denormal_spec (neg : Bool) {m : Nat} (h : m ≤ 2 ^ 63) :
    finite (ext neg (if m < 2 ^ 63 then 0 else 1) m) = true ∧ signOf (ext neg (if m < 2 ^ 63 then 0 else 1) m) = neg ∧
      val (ext neg (if m < 2 ^ 63 then 0 else 1) m) = sgn neg * ((m : ℚ) * 2 ^ (-16445 : ℤ)) := by
  have hlt : m < 2 ^ 64 := by omega
  have he : (if m < 2 ^ 63 then 0 else 1) < 2 ^ 15 := by split <;> norm_num
  refine ⟨?_, signOf_ext _ _ _, ?_⟩
  · rw [finite_iff, bexp_ext _ he, sig_ext _ _ hlt]
    split <;> omega
  · rw [val_eq, signOf_ext, sig_ext _ _ hlt, trueExp, bexp_ext _ he]
    split <;> norm_num

/-- Underflow, masked: rounded to a multiple of the smallest unit of the precision, UE and PE when that loses accuracy
(R165). -/
theorem deliver_underflow_masked (h : Exactly v p a) (hy : IsRounding cw.rc (sgn neg * a) (v.log2 - p + 1) y)
    (hlo : |y| < (2 : K) ^ (-16382 : ℤ)) (hum : cw.um = true) :
    ∃ lost up x, deliver cw p neg v = { signals := { ue := lost, pe := lost }, val := some x, c1 := .set up } ∧
      (lost = true ↔ ((val x : ℚ) : K) ≠ sgn neg * a) ∧ (up = true ↔ |sgn neg * a| < |((val x : ℚ) : K)|) ∧
      finite x = true ∧ signOf x = neg ∧ IsRounding cw.rc (sgn neg * a) (-16381 - p) ((val x : ℚ) : K) := by
  have halt : a < (2 : K) ^ (-16382 : ℤ) := by
    by_contra hc
    exact absurd (h.le_abs_of_le hy (not_lt.1 hc)) (not_le.2 hlo)
  have hlog := h.log2_lt halt
  have hp := h.le
  have hp1 := h.one_le
  have hu : (-16382 - p + 1 : ℤ) = -16381 - p := by ring
  have hr : RoundsTo cw.rc neg (-16381 - p) a (roundAt cw.rc neg (-16382 - p + 1) v) := by
    rw [hu]
    exact roundAt_roundsTo h.rep cw.rc neg fun hs => by have := h.e_lt hs; omega
  rw [deliver_underflow h hy hlo, deliverUnderflow, hum, if_pos rfl]
  generalize roundAt cw.rc neg (-16382 - p + 1) v = t at hr
  have hd := hr.describes h.pos.le hr.isRounding
  have hm : t.q <<< (64 - p) ≤ 2 ^ 63 := by
    have hq : t.q ≤ 2 ^ (p - 1) := by
      refine hr.le _ (halt.trans_le (le_of_eq ?_))
      push_cast
      rw [← zpow_natCast, ← zpow_add₀ two_ne_zero]
      congr 1
      omega
    rw [Nat.shiftLeft_eq]
    calc _ ≤ 2 ^ (p - 1) * 2 ^ (64 - p) := Nat.mul_le_mul_right _ hq
      _ = 2 ^ 63 := by rw [← pow_add]; congr 1; omega
  have hunits : ((t.q <<< (64 - p) : Nat) : ℚ) * 2 ^ (-16445 : ℤ) = (t.q : ℚ) * 2 ^ (-16381 - p : ℤ) := by
    rw [Nat.shiftLeft_eq, Nat.cast_mul, Nat.cast_pow, Nat.cast_ofNat, mul_assoc, ← zpow_natCast,
      ← zpow_add₀ two_ne_zero]
    congr 2
    omega
  obtain ⟨hf, hs, hval⟩ := ext_denormal_spec neg hm
  refine ⟨_, _, _, rfl, ?_⟩
  generalize ext neg (if t.q <<< (64 - p) < 2 ^ 63 then 0 else 1) (t.q <<< (64 - p)) = x at hf hs hval
  have hvalK : ((val x : ℚ) : K) = sgn neg * ((t.q : K) * 2 ^ (-16381 - p : ℤ)) := by
    rw [hval, hunits]
    cases neg <;> simp
  rw [hvalK]
  exact ⟨hd.inexact, hd.up, hf, hs, hr.isRounding⟩

end

end Sys2Proof.Machine
end

section
/-! PROOFS. The table of R263: what `exactOf` gives for numbers, infinities and zeros, in terms of the operands' values. -/

namespace Sys2Proof.Machine

/-! The fixed-point reading of a pattern. -/

theorem fixed_eq (x : Ext) : (fixed x : ℚ) = val x * 2 ^ (16445 : ℤ) := by
  have h : ((sig x <<< (max (bexp x) 1 - 1) : Nat) : ℚ) = (sig x : ℚ) * 2 ^ trueExp x * 2 ^ (16445 : ℤ) := by
    rw [Nat.shiftLeft_eq, Nat.cast_mul, Nat.cast_pow, Nat.cast_ofNat, mul_assoc, ← zpow_natCast, ← zpow_add₀ two_ne_zero,
      trueExp]
    congr 2
    omega
  rw [fixed, val_eq]
  split
  case isTrue hs => rw [Int.cast_neg, Int.cast_natCast, h, hs, sgn_true]; ring
  case isFalse hs => rw [Int.cast_natCast, h, Bool.eq_false_iff.2 hs, sgn_false]; ring

/-! A pattern with its sign inverted. -/

@[simp] theorem signOf_negate (x : Ext) : signOf (negate x) = !signOf x := by
  rw [signOf, negate, BitVec.getLsbD_xor, show ((1 <<< 79 : Nat) : Ext).getLsbD 79 = true by decide, Bool.xor_true, signOf]

@[simp] theorem bexp_negate (x : Ext) : bexp (negate x) = bexp x := by
  rw [bexp, negate, BitVec.extractLsb'_xor, show ((1 <<< 79 : Nat) : Ext).extractLsb' 64 15 = 0 by decide]
  simp [bexp]

@[simp] theorem sig_negate (x : Ext) : sig (negate x) = sig x := by
  rw [sig, negate, BitVec.extractLsb'_xor, show ((1 <<< 79 : Nat) : Ext).extractLsb' 0 64 = 0 by decide]
  simp [sig]

@[simp] theorem classOf_negate (x : Ext) : classOf (negate x) = classOf x := by
  have h62 : (negate x).getLsbD 62 = x.getLsbD 62 := by
    rw [negate, BitVec.getLsbD_xor, show ((1 <<< 79 : Nat) : Ext).getLsbD 62 = false by decide, Bool.xor_false]
  rw [classOf, classOf, bexp_negate, sig_negate, h62]

@[simp] theorem val_negate (x : Ext) : val (negate x) = -val x := by
  rw [val_eq, val_eq, signOf_negate, sig_negate, trueExp, trueExp, bexp_negate]
  cases signOf x <;> simp

@[simp] theorem finite_negate (x : Ext) : finite (negate x) = finite x := by simp [finite]

/-! Signs of products and sums. -/

/-- The sign of a nonzero number given as a sign and a magnitude. -/
theorem decide_neg_eq {e : ℚ} {b : Bool} (he : e ≠ 0) (hb : e = sgn b * |e|) : decide (e < 0) = b := by
  have hpos := abs_pos.2 he
  rw [hb]
  cases b with
  | true => simpa using hpos
  | false => simp

theorem eq_sgn_abs (e : ℚ) : e = sgn (decide (e < 0)) * |e| := by
  by_cases h : e < 0
  · rw [decide_eq_true h, abs_of_neg h]; simp
  · rw [decide_eq_false h, abs_of_nonneg (not_lt.1 h)]; simp

theorem sgn_bne (a b : Bool) : (sgn (a != b) : ℚ) = sgn a * sgn b := by cases a <;> cases b <;> simp

theorem classOf_ne_infinity {x : Ext} (h : finite x = true) : classOf x ≠ .infinity := by
  intro hc
  simp [finite, hc] at h

/-- The rows of addition for numbers. -/
theorem exactAdd_of_finite (rc : BitVec 2) {a b : Ext} (ha : finite a = true) (hb : finite b = true) :
    (val a + val b = 0 → exactAdd rc a b = .zero (if signOf a = signOf b then signOf a else rc == 1)) ∧
      (val a + val b ≠ 0 → ∃ m, exactAdd rc a b = .fin (decide (val a + val b < 0)) m ∧
        ∀ p, 1 ≤ p → p ≤ 64 → Exactly m p |val a + val b|) := by
  have hp : (0 : ℚ) < 2 ^ (16445 : ℤ) := zpow_pos two_pos _
  have hsum : ((fixed a + fixed b : ℤ) : ℚ) = (val a + val b) * 2 ^ (16445 : ℤ) := by
    rw [Int.cast_add, fixed_eq, fixed_eq, add_mul]
  have hzero : fixed a + fixed b = 0 ↔ val a + val b = 0 := by
    rw [← Int.cast_inj (α := ℚ), hsum, Int.cast_zero, mul_eq_zero, or_iff_left hp.ne']
  have hneg : fixed a + fixed b < 0 ↔ val a + val b < 0 := by
    rw [← Int.cast_lt (R := ℚ), hsum, Int.cast_zero, mul_neg_iff]
    simp
  have hai := classOf_ne_infinity ha
  have hbi := classOf_ne_infinity hb
  unfold exactAdd
  simp only [hai, hbi, false_and, if_false]
  constructor
  · intro h0
    split
    case isTrue => rfl
    case isFalse hz =>
      rw [if_pos (hzero.2 h0)]
      have hab : val a = -val b := by linarith
      have hb0 : val b ≠ 0 := fun hb0 => by
        rw [classOf_zero_iff_val ha, classOf_zero_iff_val hb] at hz
        exact hz ⟨by rw [hab, hb0, neg_zero], hb0⟩
      have hsigns : signOf a ≠ signOf b := by
        intro hs
        have h1 := val_neg_iff (x := a) (by rw [hab]; exact neg_ne_zero.2 hb0)
        have h2 := val_neg_iff hb0
        rw [hs, ← h2, hab, neg_lt_zero] at h1
        rcases lt_or_gt_of_ne hb0 with h | h
        · exact absurd (h1.2 h) (not_lt.2 h.le)
        · exact absurd (h1.1 h) (not_lt.2 h.le)
      rw [if_neg hsigns]
  · intro h0
    rw [if_neg fun hz => h0 ?zeros, if_neg fun h => h0 (hzero.1 h)]
    case zeros =>
      rw [classOf_zero_iff_val ha, classOf_zero_iff_val hb] at hz
      rw [hz.1, hz.2, add_zero]
    refine ⟨_, by rw [decide_eq_decide.2 hneg], fun p h1 h64 => ⟨?_, ?_, h1, h64, fun h => by cases h⟩⟩
    · show |val a + val b| = ((fixed a + fixed b).natAbs : ℚ) * 2 ^ (-16445 : ℤ)
      rw [Nat.cast_natAbs, Int.cast_abs, hsum, abs_mul, abs_of_pos hp, mul_assoc, ← zpow_add₀ two_ne_zero]
      norm_num
    · exact Int.natAbs_ne_zero.2 fun h => h0 (hzero.1 h)

/-- The rows of multiplication for numbers. -/
theorem exactMul_of_finite {a b : Ext} (ha : finite a = true) (hb : finite b = true) :
    (val a * val b = 0 → exactMul a b = .zero (signOf a != signOf b)) ∧
      (val a * val b ≠ 0 → ∃ m, exactMul a b = .fin (decide (val a * val b < 0)) m ∧
        ∀ p, 1 ≤ p → p ≤ 64 → Exactly m p |val a * val b|) := by
  have hai := classOf_ne_infinity ha
  have hbi := classOf_ne_infinity hb
  unfold exactMul
  simp only [hai, hbi, false_and, and_false, or_self, if_false, classOf_zero_iff_val ha, classOf_zero_iff_val hb,
    ← mul_eq_zero]
  refine ⟨fun h0 => if_pos h0, fun h0 => ?_⟩
  rw [if_neg h0]
  obtain ⟨ha0, hb0⟩ := mul_ne_zero_iff.1 h0
  have hsign : decide (val a * val b < 0) = (signOf a != signOf b) := by
    refine decide_neg_eq h0 ?_
    rw [sgn_bne, abs_mul, mul_mul_mul_comm, ← val_eq_sgn, ← val_eq_sgn]
  refine ⟨_, by rw [hsign], fun p h1 h64 => ⟨?_, ?_, h1, h64, fun h => by cases h⟩⟩
  · show |val a * val b| = ((sig a * sig b : Nat) : ℚ) * 2 ^ (trueExp a + trueExp b)
    rw [abs_mul, abs_val, abs_val, Nat.cast_mul, zpow_add₀ two_ne_zero]
    ring
  · exact mul_ne_zero (fun h => ha0 ((val_eq_zero_iff a).2 h)) fun h => hb0 ((val_eq_zero_iff b).2 h)

/-- The quotient of magnitudes to 66 bits (R264). -/
theorem divMag_exactly {a b : Ext} (ha : val a ≠ 0) (hb : val b ≠ 0) {p : Nat} (h1 : 1 ≤ p) (h64 : p ≤ 64) :
    Exactly (divMag (magOf a) (magOf b)) p (|val a| / |val b|) := by
  have ha0 : sig a ≠ 0 := fun h => ha ((val_eq_zero_iff a).2 h)
  have hb0 : 0 < sig b := Nat.pos_of_ne_zero fun h => hb ((val_eq_zero_iff b).2 h)
  have hbq : (0 : ℚ) < sig b := by exact_mod_cast hb0
  have hbig : 2 ^ 65 ≤ (sig a <<< 130) / sig b := by
    rw [Nat.shiftLeft_eq, Nat.le_div_iff_mul_le hb0]
    calc 2 ^ 65 * sig b ≤ 2 ^ 65 * 2 ^ 64 := Nat.mul_le_mul_left _ (sig_lt b).le
      _ ≤ 1 * 2 ^ 130 := by norm_num
      _ ≤ sig a * 2 ^ 130 := Nat.mul_le_mul_right _ (Nat.one_le_iff_ne_zero.2 ha0)
  have hquot : |val a| / |val b| = ((sig a <<< 130 : Nat) : ℚ) / sig b * 2 ^ (trueExp a - trueExp b - 130) := by
    rw [abs_val, abs_val, Nat.shiftLeft_eq, Nat.cast_mul, Nat.cast_pow, zpow_sub₀ two_ne_zero, zpow_sub₀ two_ne_zero]
    field_simp
    norm_num
  have hp : (0 : ℚ) < 2 ^ (trueExp a - trueExp b - 130) := zpow_pos two_pos _
  refine ⟨?_, (lt_of_lt_of_le (by norm_num) hbig).ne', h1, h64, fun _ => hbig⟩
  show Mag.Rep { m := (sig a <<< 130) / sig b, e := _, sticky := (sig a <<< 130) % sig b != 0 } _
  generalize sig a <<< 130 = n at hbig hquot ⊢
  have hdm : (n : ℚ) = sig b * (n / sig b : Nat) + (n % sig b : Nat) := by exact_mod_cast (Nat.div_add_mod n (sig b)).symm
  unfold Mag.Rep
  rw [hquot]
  split
  case isTrue hr =>
    have hr' : (0 : ℚ) < (n % sig b : Nat) := by
      exact_mod_cast Nat.pos_of_ne_zero (bne_iff_ne.1 hr)
    have hr'' : ((n % sig b : Nat) : ℚ) < sig b := by exact_mod_cast Nat.mod_lt n hb0
    refine ⟨mul_lt_mul_of_pos_right ?_ hp, mul_lt_mul_of_pos_right ?_ hp⟩
    · rw [lt_div_iff₀ hbq]; linarith
    · rw [div_lt_iff₀ hbq]; linarith
  case isFalse hr =>
    have hr' : n % sig b = 0 := by simpa using hr
    rw [hr', Nat.cast_zero, add_zero] at hdm
    rw [hdm, mul_div_cancel_left₀ _ hbq.ne']
    rfl

/-- The rows of division for numbers. -/
theorem exactDiv_of_finite {a b : Ext} (ha : finite a = true) (hb : finite b = true) (hb0 : val b ≠ 0) :
    (val a / val b = 0 → exactDiv a b = .zero (signOf a != signOf b)) ∧
      (val a / val b ≠ 0 → ∃ m, exactDiv a b = .fin (decide (val a / val b < 0)) m ∧
        ∀ p, 1 ≤ p → p ≤ 64 → Exactly m p |val a / val b|) := by
  have hai := classOf_ne_infinity ha
  have hbi := classOf_ne_infinity hb
  unfold exactDiv
  simp only [hai, hbi, and_false, or_self, if_false, classOf_zero_iff_val ha, classOf_zero_iff_val hb, hb0, div_eq_zero_iff,
    or_false]
  refine ⟨fun h0 => if_pos h0, fun h0 => ?_⟩
  have ha0 := (div_ne_zero_iff.1 h0).1
  rw [if_neg ha0]
  have hsign : decide (val a / val b < 0) = (signOf a != signOf b) := by
    refine decide_neg_eq h0 ?_
    rw [sgn_bne, abs_div]
    conv_lhs => rw [val_eq_sgn a, val_eq_sgn b]
    cases signOf a <;> cases signOf b <;> simp [neg_div, div_neg]
  refine ⟨_, by rw [hsign], fun p h1 h64 => ?_⟩
  rw [abs_div]
  exact divMag_exactly ha0 hb0 h1 h64

/-- The rows of R263 for numbers. -/
theorem exactOf_of_finite (op : ArithOp) (rc : BitVec 2) {a b : Ext} (ha : finite a = true) (hb : finite b = true)
    (hd : op = .div → val b ≠ 0) :
    (op.apply (val a) (val b) = 0 → exactOf op rc a b = .zero (zeroSign op rc (signOf a) (signOf b))) ∧
      (op.apply (val a) (val b) ≠ 0 → ∃ m, exactOf op rc a b = .fin (decide (op.apply (val a) (val b) < 0)) m ∧
        ∀ p, 1 ≤ p → p ≤ 64 → Exactly m p |op.apply (val a) (val b)|) := by
  cases op with
  | add => exact exactAdd_of_finite rc ha hb
  | sub =>
    have h := exactAdd_of_finite rc ha (b := negate b) (by rwa [finite_negate])
    rw [val_negate, signOf_negate, ← sub_eq_add_neg] at h
    exact h
  | mul => exact exactMul_of_finite ha hb
  | div => exact exactDiv_of_finite ha hb (hd rfl)

end Sys2Proof.Machine
end

section
/-! PROOFS. Operands in memory: the register patterns that R226, R227 and R261 make of them have their class, sign and value. -/

namespace Sys2Proof.Machine

/-! The two formats (R76). -/

/-- f is the single or the double format. -/
def IsFormat (f : RealFormat) : Prop := f = single ∨ f = double

/-- What the proofs use of a format's numbers. -/
structure FormatFacts (f : RealFormat) : Prop where
  one_le_fw : 1 ≤ f.fw
  fw_le : f.fw ≤ 52
  ones : f.ones = 2 * f.bias + 1
  pow_ew : 2 ^ f.ew = 2 * f.bias + 2
  bias_le : f.bias ≤ 1023
  one_le_bias : 1 ≤ f.bias

theorem IsFormat.facts {f : RealFormat} (h : IsFormat f) : FormatFacts f := by
  rcases h with rfl | rfl <;> exact ⟨by decide, by decide, by decide, by decide, by decide, by decide⟩

theorem formatVal_eq (f : RealFormat) (y : Nat) :
    formatVal f y = sgn (y.testBit (f.ew + f.fw)) *
      (((if expField f y = 0 then y % 2 ^ f.fw else 2 ^ f.fw + y % 2 ^ f.fw : Nat) : ℚ) *
        2 ^ ((max (expField f y) 1 : Nat) - f.bias - f.fw : ℤ)) := by
  rw [formatVal, sgn, mul_assoc]
  rfl

theorem widen_sign (f : RealFormat) (y : Nat) : (y / 2 ^ (f.ew + f.fw) % 2 == 1) = y.testBit (f.ew + f.fw) := by
  rw [Nat.testBit_eq_decide_div_mod_eq]
  rfl

theorem expField_lt (f : RealFormat) (y : Nat) : expField f y < 2 ^ f.ew := Nat.mod_lt _ (by positivity)

/-! An operand as the rules speak of it, and the pattern the instructions take. -/

/-- The pattern o stands for the operand d: a memory denormal widens to a normal number (R226, R261). -/
structure Matches (d : Datum) (o : Operand80) : Prop where
  denormal : o.denormal = (d.cls == .denormal)
  cls : classOf o.x = d.cls ∨ (d.cls = .denormal ∧ classOf o.x = .normal)
  negative : signOf o.x = d.negative
  value : finite o.x = true → val o.x = d.value
  nan : d.isNaN = true → o.x = d.nan

/-- The significand of a NaN's fraction. -/
theorem append_eq_ext (s : Bool) (e : BitVec 15) (m : BitVec 63) :
    (BitVec.ofBool s ++ e ++ (1 : BitVec 1) ++ m : Ext) = ext s e.toNat (2 ^ 63 + m.toNat) := by
  refine BitVec.eq_of_toNat_eq ?_
  have hm := m.isLt
  have he := e.isLt
  rw [ext_toNat, BitVec.toNat_append, ← Nat.shiftLeft_add_eq_or_of_lt hm, BitVec.toNat_append,
    ← Nat.shiftLeft_add_eq_or_of_lt (by decide), BitVec.toNat_append, ← Nat.shiftLeft_add_eq_or_of_lt he,
    BitVec.toNat_ofBool, Nat.shiftLeft_eq, Nat.shiftLeft_eq, Nat.shiftLeft_eq]
  simp only [BitVec.ofNat_eq_ofNat, BitVec.toNat_ofNat]
  omega

theorem getLsbD_62 (x : Ext) : x.getLsbD 62 = (sig x).testBit 62 := by
  rw [sig_eq, Nat.testBit_mod_two_pow, BitVec.getLsbD]
  rfl

section

variable {f : RealFormat} (hf : FormatFacts f) (y : Nat)
include hf

theorem frac_units : 2 ^ 63 + y % 2 ^ f.fw * 2 ^ (63 - f.fw) = (2 ^ f.fw + y % 2 ^ f.fw) * 2 ^ (63 - f.fw) := by
  have := hf.fw_le
  rw [add_mul, ← pow_add]
  congr 2
  omega

theorem frac_lt : 2 ^ 63 + y % 2 ^ f.fw * 2 ^ (63 - f.fw) < 2 ^ 64 := by
  have := hf.fw_le
  have hlt : y % 2 ^ f.fw < 2 ^ f.fw := Nat.mod_lt _ (by positivity)
  have h2 : (2 ^ f.fw + 2 ^ f.fw) * 2 ^ (63 - f.fw) = 2 ^ 64 := by
    rw [← two_mul, ← pow_succ', ← pow_add]
    congr 1
    omega
  rw [frac_units hf, ← h2]
  exact Nat.mul_lt_mul_of_pos_right (by omega) (by positivity)

omit hf in
theorem widen_of_ones (he : expField f y = f.ones) :
    widen f y = { x := ext (y.testBit (f.ew + f.fw)) 0x7FFF (2 ^ 63 + y % 2 ^ f.fw * 2 ^ (63 - f.fw)), denormal := false } := by
  have he' : y / 2 ^ f.fw % 2 ^ f.ew = f.ones := he
  unfold widen
  simp only [he', if_true, widen_sign]

omit hf in
theorem widen_of_normal (he : expField f y ≠ f.ones) (h0 : expField f y ≠ 0) :
    widen f y = { x := ext (y.testBit (f.ew + f.fw)) (expField f y + 16383 - f.bias)
                    (2 ^ 63 + y % 2 ^ f.fw * 2 ^ (63 - f.fw)), denormal := false } := by
  have he' : y / 2 ^ f.fw % 2 ^ f.ew ≠ f.ones := he
  have h0' : y / 2 ^ f.fw % 2 ^ f.ew ≠ 0 := h0
  unfold widen
  simp only [he', h0', if_false, if_true, widen_sign, ne_eq, not_false_eq_true]
  rfl

theorem ones_ne_zero : (0 : Nat) ≠ f.ones := by have := hf.ones; omega

theorem widen_of_zero (h0 : expField f y = 0) (hz : y % 2 ^ f.fw = 0) :
    widen f y = { x := zeroOf (y.testBit (f.ew + f.fw)), denormal := false } := by
  have h0' : y / 2 ^ f.fw % 2 ^ f.ew = 0 := h0
  unfold widen
  simp only [h0', hz, ones_ne_zero hf, if_false, if_true, widen_sign, ne_eq, not_true_eq_false]

theorem widen_of_denormal (h0 : expField f y = 0) (hz : y % 2 ^ f.fw ≠ 0) :
    widen f y = { x := ext (y.testBit (f.ew + f.fw)) (16383 + 1 + (y % 2 ^ f.fw).log2 - f.bias - f.fw)
                    ((y % 2 ^ f.fw) <<< (63 - (y % 2 ^ f.fw).log2)), denormal := true } := by
  have h0' : y / 2 ^ f.fw % 2 ^ f.ew = 0 := h0
  unfold widen
  simp only [h0', hz, ones_ne_zero hf, if_false, widen_sign, ne_eq, not_true_eq_false]

theorem widen_of_denormal_eq (h0 : expField f y = 0) (hz : y % 2 ^ f.fw ≠ 0) :
    widen f y = { x := encodeNormal (y.testBit (f.ew + f.fw)) (y % 2 ^ f.fw) (1 - f.bias - f.fw), denormal := true } := by
  have hfw := hf.fw_le
  have hbias := hf.bias_le
  have hlog : (y % 2 ^ f.fw).log2 < f.fw := (Nat.log2_lt hz).2 (Nat.mod_lt _ (by positivity))
  have he : ((y % 2 ^ f.fw).log2 + (1 - f.bias - f.fw : ℤ) + 16383).toNat =
      16383 + 1 + (y % 2 ^ f.fw).log2 - f.bias - f.fw := by omega
  rw [widen_of_denormal hf y h0 hz, encodeNormal_eq, he, normalSig, if_pos (by omega)]

/-- The class of an exponent field of ones (R142). -/
theorem classOf_widen_ones (s : Bool) :
    classOf (ext s 0x7FFF (2 ^ 63 + y % 2 ^ f.fw * 2 ^ (63 - f.fw))) =
      if y % 2 ^ f.fw = 0 then .infinity else if (y % 2 ^ f.fw).testBit (f.fw - 1) then .qnan else .snan := by
  have hlt := frac_lt hf y
  have hfw := hf.fw_le
  have hfw1 := hf.one_le_fw
  have hbit : (ext s 0x7FFF (2 ^ 63 + y % 2 ^ f.fw * 2 ^ (63 - f.fw))).getLsbD 62 = (y % 2 ^ f.fw).testBit (f.fw - 1) := by
    rw [getLsbD_62, sig_ext _ _ hlt, Nat.testBit_two_pow_add_gt (by norm_num), Nat.testBit_mul_two_pow,
      decide_eq_true (by omega), Bool.true_and]
    congr 1
    omega
  have hsig : (2 ^ 63 + y % 2 ^ f.fw * 2 ^ (63 - f.fw) = 2 ^ 63) ↔ y % 2 ^ f.fw = 0 := by
    rw [Nat.add_eq_left, Nat.mul_eq_zero, or_iff_left (by positivity)]
  unfold classOf
  simp only [bexp_ext s (show 0x7FFF < 2 ^ 15 by norm_num), sig_ext s _ hlt, hbit, hsig]
  norm_num

/-- R226 and R261: the widened operand. -/
theorem widen_matches :
    Matches { empty := false, cls := formatClass f y, negative := y.testBit (f.ew + f.fw), value := formatVal f y,
              nan := formatNan f y } (widen f y) := by
  have hfw := hf.fw_le
  have hbias := hf.bias_le
  have hlt := frac_lt hf y
  have hexp := expField_lt f y
  have hones := hf.ones
  unfold formatClass
  by_cases he : expField f y = f.ones
  · rw [if_pos he, widen_of_ones y he]
    have hc := classOf_widen_ones hf y (y.testBit (f.ew + f.fw))
    refine ⟨?_, .inl hc, signOf_ext _ _ _, fun hfin => ?_, fun hnan => ?_⟩
    · split_ifs <;> rfl
    · exfalso
      rw [finite, hc] at hfin
      revert hfin
      split_ifs <;> decide
    · have hm : (BitVec.ofNat 63 (y % 2 ^ f.fw * 2 ^ (63 - f.fw))).toNat = y % 2 ^ f.fw * 2 ^ (63 - f.fw) := by
        rw [BitVec.toNat_ofNat, Nat.mod_eq_of_lt (by omega)]
      show ext _ _ _ = formatNan f y
      rw [formatNan, append_eq_ext, hm]
      rfl
  · rw [if_neg he]
    by_cases h0 : expField f y = 0
    · rw [if_pos h0]
      by_cases hz : y % 2 ^ f.fw = 0
      · rw [if_pos hz, widen_of_zero hf y h0 hz]
        obtain ⟨h1, h2, h3⟩ := zeroOf_spec (y.testBit (f.ew + f.fw))
        exact ⟨rfl, .inl h1, h2, fun _ => by rw [h3, formatVal_eq, h0, hz]; simp, fun h => by cases h⟩
      · rw [if_neg hz, widen_of_denormal_eq hf y h0 hz]
        have hF : y % 2 ^ f.fw < 2 ^ f.fw := Nat.mod_lt _ (by positivity)
        have hpow : 2 ^ f.fw ≤ 2 ^ 64 := Nat.pow_le_pow_right (by norm_num) (by omega)
        have hlog : (y % 2 ^ f.fw).log2 < f.fw :=
          (Nat.log2_lt hz).2 (Nat.mod_lt _ (by positivity))
        have hfit : Fits (y % 2 ^ f.fw) := ⟨hz, by omega⟩
        obtain ⟨h1, h2, h3⟩ := encodeNormal_spec (y.testBit (f.ew + f.fw)) hfit (u := 1 - f.bias - f.fw) (by omega) (by omega)
        refine ⟨rfl, .inr ⟨rfl, h1⟩, h2, fun _ => ?_, fun h => by cases h⟩
        rw [h3, formatVal_eq, h0, if_pos rfl]
        norm_num
    · rw [if_neg h0, widen_of_normal y he h0]
      have h1 : 1 ≤ expField f y + 16383 - f.bias := by omega
      have h2 : expField f y + 16383 - f.bias < 0x7FFF := by
        have := hf.pow_ew
        omega
      refine ⟨rfl, .inl (classOf_ext_normal _ h1 h2 (Nat.le_add_right _ _) hlt), signOf_ext _ _ _, fun _ => ?_,
        fun h => by cases h⟩
      rw [val_ext _ h1 (by omega) hlt, formatVal_eq, if_neg h0, frac_units hf, Nat.cast_mul, mul_assoc, Nat.cast_pow,
        Nat.cast_ofNat, ← zpow_natCast, ← zpow_add₀ two_ne_zero]
      congr 3
      push_cast
      omega

end

/-! Integers (R227). -/

theorem encodeNormal_int_spec (b : Bool) {q : Nat} (h0 : q ≠ 0) (h : q < 2 ^ 64) :
    classOf (encodeNat b q) = .normal := by
  rw [encodeNat, if_neg h0]
  have hlog : q.log2 < 64 := (Nat.log2_lt h0).2 h
  exact (encodeNormal_spec b ⟨h0, h.le⟩ (by omega) (by omega)).1

/-- R227: the converted integer. -/
theorem intToExt_matches {n y : Nat} (h1 : 1 ≤ n) (h64 : n ≤ 64) (hy : y < 2 ^ n) :
    Matches { empty := false, cls := if y % 2 ^ n = 0 then .zero else .normal, negative := y.testBit (n - 1),
              value := ((BitVec.ofNat n y).toInt : ℚ), nan := 0 } { x := intToExt n y, denormal := false } := by
  have h2 : 2 ^ n = 2 * 2 ^ (n - 1) := by rw [← pow_succ']; congr 1; omega
  have hpow : 2 ^ n ≤ 2 ^ 64 := Nat.pow_le_pow_right (by norm_num) h64
  have hbit : y.testBit (n - 1) = decide (2 ^ (n - 1) ≤ y) := by
    rw [Nat.testBit_eq_decide_div_mod_eq, decide_eq_decide]
    constructor
    · intro h
      by_contra hc
      rw [Nat.div_eq_of_lt (not_le.1 hc)] at h
      cases h
    · intro h
      rw [Nat.div_eq_of_lt_le (k := 1) (by omega) (by omega)]
  have hint : (BitVec.ofNat n y).toInt = if y < 2 ^ (n - 1) then (y : ℤ) else y - 2 ^ n := by
    rw [BitVec.toInt_eq_toNat_cond, BitVec.toNat_ofNat, Nat.mod_eq_of_lt hy]
    have h2z : (2 : ℤ) ^ n = ((2 ^ n : Nat) : ℤ) := by push_cast; rfl
    rw [h2z]
    split_ifs <;> omega
  rw [Nat.mod_eq_of_lt hy, hint]
  unfold intToExt
  by_cases hc : y < 2 ^ (n - 1)
  · rw [if_pos hc, if_pos hc]
    obtain ⟨-, h2, h3⟩ := encodeNat_spec false (q := y) (by omega)
    refine ⟨?_, .inl ?_, ?_, fun _ => ?_, fun h => ?_⟩
    · split_ifs <;> rfl
    · split_ifs with h0
      · rw [encodeNat, if_pos h0]
        exact (zeroOf_spec false).1
      · exact encodeNormal_int_spec false h0 (by omega)
    · exact h2.trans (by rw [hbit, decide_eq_false (not_le.2 hc)])
    · rw [h3]; simp
    · exfalso; revert h; split_ifs <;> exact Bool.false_ne_true
  · have h0 : y ≠ 0 := by have : 0 < 2 ^ (n - 1) := by positivity
                          omega
    rw [if_neg hc, if_neg hc, if_neg h0]
    obtain ⟨-, h2, h3⟩ := encodeNat_spec true (q := 2 ^ n - y) (by omega)
    refine ⟨rfl, .inl (encodeNormal_int_spec true (by omega) (by omega)), ?_, fun _ => ?_, fun h => by cases h⟩
    · exact h2.trans (by rw [hbit, decide_eq_true (not_lt.1 hc)])
    · rw [h3, Nat.cast_sub hy.le]; push_cast; simp

/-! Every operand. -/

/-- What an instruction's memory operand holds, with no more bits than its size (R81). -/
def InMemory (s : State) (i : Instr) (k : MemNumber) : Prop :=
  match k with
  | .real f => IsFormat f
  | .int n => 1 ≤ n ∧ n ≤ 8 ∧ operandBytes s i < 2 ^ (8 * n)

theorem operandBytes_lt {s : State} {i : Instr} {o : Operand} (ho : operandOf s i = some o) :
    operandBytes s i < 2 ^ (8 * o.bytes) := by
  rw [operandBytes_eq ho, ← o.addrs_length]
  exact Memory.readAll_lt _ _

/-- The size of a memory operand (R76, R81). -/
def MemNumber.bytes : MemNumber → Nat
  | .real f => (f.ew + f.fw + 1) / 8
  | .int n => n

/-- The kinds of memory operand that R201 to R241 name. -/
def MemNumber.kinds : List MemNumber := [.real single, .real double, .int 2, .int 4, .int 8]

/-- The number an instruction of arithmetic, a comparison or a load takes from memory. -/
def memNumber (i : Instr) : Option MemNumber :=
  match memArith i, memCompare i with
  | some a, _ => some a.number
  | none, some q => some q.1
  | none, none => numberLoad i

theorem operandOf_of_memNumber {i : Instr} {k : MemNumber} (h : memNumber i = some k) (s : State) :
    k ∈ MemNumber.kinds ∧ ∃ o, operandOf s i = some o ∧ o.bytes = k.bytes := by
  cases i <;> cases h <;> exact ⟨by decide, _, rfl, rfl⟩

theorem inMemory_of_memNumber {i : Instr} {k : MemNumber} (h : memNumber i = some k) (s : State) : InMemory s i k := by
  obtain ⟨hk, o, ho, hb⟩ := operandOf_of_memNumber h s
  have hlt := operandBytes_lt ho
  rw [hb] at hlt
  simp only [MemNumber.kinds, List.mem_cons, List.not_mem_nil, or_false] at hk
  rcases hk with rfl | rfl | rfl | rfl | rfl
  · exact .inl rfl
  · exact .inr rfl
  · exact ⟨by norm_num, by norm_num, hlt⟩
  · exact ⟨by norm_num, by norm_num, hlt⟩
  · exact ⟨by norm_num, by norm_num, hlt⟩

/-- The pattern that stands for an operand (R226, R227, R261). -/
theorem datum_matches {s : State} {i : Instr} {q : Source} (h : ∀ k, q = .mem k → memNumber i = some k) :
    Matches (datum s i q) (q.operand s.npx (operandBytes s i)) := by
  cases q with
  | reg j => exact ⟨rfl, .inl rfl, rfl, fun _ => rfl, fun _ => rfl⟩
  | posZero =>
    obtain ⟨h1, h2, h3⟩ := zeroOf_spec false
    exact ⟨rfl, .inl h1, h2, fun _ => h3, fun h => by cases h⟩
  | mem k =>
    have hk := inMemory_of_memNumber (h k rfl) s
    cases k with
    | real f => exact widen_matches (IsFormat.facts hk) _
    | int n =>
      obtain ⟨h1, h8, hlt⟩ := hk
      exact intToExt_matches (by omega) (by omega) hlt

theorem memNumber_of_arith {i : Instr} {a : ArithForm} (h : arithForm i = some a) {q : Source}
    (hq : q = a.left ∨ q = a.right) (k : MemNumber) (hk : q = .mem k) : memNumber i = some k := by
  subst hk
  cases i <;> cases h <;> rcases hq with hq | hq <;> cases hq <;> rfl

theorem memNumber_of_compare {i : Instr} {q : Source} {pops : Nat} (h : compareForm i = some (q, pops)) (k : MemNumber)
    (hk : q = .mem k) : memNumber i = some k := by
  subst hk
  cases i <;> cases h <;> rfl

/-- What `binop` takes of the left operand. -/
def ArithForm.l (a : ArithForm) (s : State) (i : Instr) : Operand80 := a.left.operand s.npx (operandBytes s i)

/-- What `binop` takes of the right operand. -/
def ArithForm.r (a : ArithForm) (s : State) (i : Instr) : Operand80 := a.right.operand s.npx (operandBytes s i)

/-- The operands of an arithmetic form. -/
theorem left_matches {i : Instr} {a : ArithForm} (h : arithForm i = some a) (s : State) :
    Matches (datum s i a.left) (a.l s i) :=
  datum_matches (memNumber_of_arith h (.inl rfl))

theorem right_matches {i : Instr} {a : ArithForm} (h : arithForm i = some a) (s : State) :
    Matches (datum s i a.right) (a.r s i) :=
  datum_matches (memNumber_of_arith h (.inr rfl))

namespace Matches

variable {d : Datum} {o : Operand80}

/-- A number's pattern is finite. -/
theorem finite (h : Matches d o) {dm : Bool} (hn : d.number dm = true) : finite o.x = true := by
  simp only [Datum.number, Bool.and_eq_true, Bool.or_eq_true, beq_iff_eq] at hn
  unfold Machine.finite
  rcases h.cls with hc | ⟨-, hc⟩
  · rw [hc]
    rcases hn.2 with (hz | hn') | ⟨hd, -⟩ <;> simp [*]
  · simp [hc]

theorem cls_of_ne (h : Matches d o) (hd : d.cls ≠ .denormal) : classOf o.x = d.cls :=
  h.cls.resolve_right fun hc => hd hc.1

end Matches

theorem Datum.number_denormal {d : Datum} {dm : Bool} (h : d.number dm = true) (hc : d.cls = .denormal) : dm = true := by
  have := h
  simp_all [Datum.number]

end Sys2Proof.Machine
end

section
/-! PROOFS. FADD, FSUB, FSUBR, FMUL, FDIV and FDIVR in all forms (spec/44_arithmetic.md R261 to R283): numbers, infinities,
zero divides and indeterminate forms. -/

namespace Sys2Proof.Machine

/-! A result with a denormal operand's exception (R168). -/

section

variable {α : Type} (r : Result α) (cw : ControlWord) (d : Bool)

@[simp] theorem Result.withDenormal_signals :
    (r.withDenormal d).signals = { r.signals with de := r.signals.de || d } := by
  cases d <;> simp [Result.withDenormal]

@[simp] theorem Result.withDenormal_sf : (r.withDenormal d).sf = r.sf := by cases d <;> rfl
@[simp] theorem Result.withDenormal_val : (r.withDenormal d).val = r.val := by cases d <;> rfl
@[simp] theorem Result.withDenormal_c1 : (r.withDenormal d).c1 = r.c1 := by cases d <;> rfl

/-- A denormal operand that is masked, or none. -/
theorem Result.denormal_masked (h : d = true → cw.dm = true) : Result.denormal cw d r = r.withDenormal d := by
  refine if_neg fun hc => ?_
  simp only [Bool.and_eq_true, Bool.not_eq_true'] at hc
  exact Bool.false_ne_true (hc.2.symm.trans (h hc.1))

theorem Result.denormal_unmasked (hd : d = true) (h : cw.dm = false) :
    Result.denormal cw d r = .denormalAbort := by
  rw [Result.denormal, hd, h]
  rfl

end

/-! Two operands that are no NaNs and not unsupported (R158). -/

/-- A pattern that the class tests let pass: a number or an infinity. -/
def ordinary (x : Ext) : Bool := finite x || classOf x == .infinity

theorem ordinary_of_finite {x : Ext} (h : finite x = true) : ordinary x = true := by rw [ordinary, h, Bool.true_or]

theorem ordinary_iff (x : Ext) :
    ordinary x = true ↔ classOf x ≠ .unsupported ∧ classOf x ≠ .snan ∧ classOf x ≠ .qnan := by
  unfold ordinary finite
  cases classOf x <;> decide

theorem Result.twoOperands_of_ordinary {a b : Ext} (ha : ordinary a = true) (hb : ordinary b = true) (cw : ControlWord)
    (k : Result Ext) : Result.twoOperands cw a b k = k := by
  obtain ⟨ha1, ha2, ha3⟩ := (ordinary_iff a).1 ha
  obtain ⟨hb1, hb2, hb3⟩ := (ordinary_iff b).1 hb
  unfold Result.twoOperands
  simp [ha1, ha2, ha3, hb1, hb2, hb3]

theorem Result.oneOperand_of_ordinary {a : Ext} (ha : ordinary a = true) (cw : ControlWord) (k : Result Ext) :
    Result.oneOperand cw a k = k := by
  obtain ⟨ha1, ha2, ha3⟩ := (ordinary_iff a).1 ha
  unfold Result.oneOperand
  split <;> simp_all

/-! The operands of a form. -/

theorem ArithForm.denormal_eq {i : Instr} {a : ArithForm} (h : arithForm i = some a) (s : State) :
    ((a.l s i).denormal || (a.r s i).denormal) = a.denormal s i := by
  rw [(left_matches h s).denormal, (right_matches h s).denormal, ArithForm.denormal]

theorem precisionOf_eq {pc : BitVec 2} (h : pc ≠ 1) : precisionOf pc = precisionBits pc := by
  revert h
  revert pc
  decide

theorem pc_ne_one {s : State} {i : Instr} (h : operable s i = true) (hu : usesPrecision i = true) : s.npx.cw.pc ≠ 1 := by
  intro hc
  simp [operable, hu, hc] at h

theorem usesPrecision_of_arith {i : Instr} {a : ArithForm} (h : arithForm i = some a) : usesPrecision i = true := by
  cases i <;> cases h <;> rfl

theorem declines_of_arith {i : Instr} {a : ArithForm} (h : arithForm i = some a) (x : Npx) : declines i x = false := by
  cases i <;> cases h <;> rfl

theorem precisionBits_bounds (pc : BitVec 2) : 1 ≤ precisionBits pc ∧ precisionBits pc ≤ 64 := by
  unfold precisionBits
  split_ifs <;> decide

section

variable {i : Instr} {s : State} {a : ArithForm} (h : arithForm i = some a) (ho : operable s i = true)
include h ho

/-- An arithmetic form of operands that are there ends as `binop` decides. -/
theorem ran_arith (hv : a.vacant s.npx = false) :
    Ends s.npx (s.ran i).npx (Delivered s.npx (s.ran i).npx a.dest a.pops)
      (binop s.npx.cw a.op (precisionBits s.npx.cw.pc) (a.l s i) (a.r s i)) := by
  have e := ran_computes (s := s) (.inl (computes_of_arith h)) (declines_of_arith h s.npx)
  rw [computed_of_arith h, hv, if_neg Bool.false_ne_true, precisionOf_eq (pc_ne_one ho (usesPrecision_of_arith h))] at e
  exact e

/-- A form of ordinary operands whose denormals are masked ends as the table of R263 says. -/
theorem ran_arith_exact (hv : a.vacant s.npx = false) (hl : ordinary (a.l s i).x = true)
    (hr : ordinary (a.r s i).x = true) (hd : a.denormal s i = true → s.npx.cw.dm = true) {e : Exact}
    (he : exactOf a.op s.npx.cw.rc (a.l s i).x (a.r s i).x = e) (hne : e ≠ .indeterminate) :
    Ends s.npx (s.ran i).npx (Delivered s.npx (s.ran i).npx a.dest a.pops)
      ((exactResult s.npx.cw (precisionBits s.npx.cw.pc) (signOf (a.l s i).x != signOf (a.r s i).x) e).withDenormal
        (a.denormal s i)) := by
  have e' := ran_arith h ho hv
  rw [binop, Result.twoOperands_of_ordinary hl hr, he, if_neg hne, ArithForm.denormal_eq h, Result.denormal_masked _ _ _ hd] at e'
  exact e'

end

/-! Numbers. -/

theorem Datum.number_iff {d : Datum} {dm : Bool} :
    d.number dm = true ↔ d.empty = false ∧ (d.cls = .zero ∨ d.cls = .normal ∨ (d.cls = .denormal ∧ dm = true)) := by
  simp [Datum.number, or_assoc]

theorem Datum.number_masked {d : Datum} {dm : Bool} (h : d.number dm = true) : (d.cls == .denormal) = true → dm = true :=
  fun hc => Datum.number_denormal h (beq_iff_eq.1 hc)

section

variable {i : Instr} {s : State} {a : ArithForm} (h : arithForm i = some a) (hn : a.numbers s i)
include h hn

theorem ArithForm.finite_l : finite (a.l s i).x = true := (left_matches h s).finite hn.1
theorem ArithForm.finite_r : finite (a.r s i).x = true := (right_matches h s).finite hn.2.1

theorem ArithForm.val_l : val (a.l s i).x = (datum s i a.left).value := (left_matches h s).value (finite_l h hn)
theorem ArithForm.val_r : val (a.r s i).x = (datum s i a.right).value := (right_matches h s).value (finite_r h hn)

theorem ArithForm.exact_eq : a.op.apply (val (a.l s i).x) (val (a.r s i).x) = a.exact s i := by
  rw [ArithForm.val_l h hn, ArithForm.val_r h hn, ArithForm.exact]

omit h in
theorem ArithForm.vacant_of_numbers : a.vacant s.npx = false := by
  rw [vacant_eq a s i, (Datum.number_iff.1 hn.1).1, (Datum.number_iff.1 hn.2.1).1]
  rfl

omit h in
theorem ArithForm.masked_of_numbers : a.denormal s i = true → s.npx.cw.dm = true := by
  intro hd
  rcases Bool.or_eq_true_iff.1 hd with hd | hd
  · exact Datum.number_masked hn.1 hd
  · exact Datum.number_masked hn.2.1 hd

theorem ArithForm.exactOf_numbers :
    (a.exact s i = 0 → exactOf a.op s.npx.cw.rc (a.l s i).x (a.r s i).x =
      .zero (zeroSign a.op s.npx.cw.rc (datum s i a.left).negative (datum s i a.right).negative)) ∧
    (a.exact s i ≠ 0 → ∃ m, exactOf a.op s.npx.cw.rc (a.l s i).x (a.r s i).x = .fin (decide (a.exact s i < 0)) m ∧
      ∀ p, 1 ≤ p → p ≤ 64 → Exactly m p |a.exact s i|) := by
  have e := exactOf_of_finite a.op s.npx.cw.rc (finite_l h hn) (finite_r h hn) fun hd => by
    rw [val_r h hn]; exact hn.2.2 hd
  rwa [exact_eq h hn, (left_matches h s).negative, (right_matches h s).negative] at e

/-- An exact-zero result. -/
theorem ran_arith_zero (ho : operable s i = true) (h0 : a.exact s i = 0) :
    Ends s.npx (s.ran i).npx (Delivered s.npx (s.ran i).npx a.dest a.pops)
      ((Result.ok (zeroOf (zeroSign a.op s.npx.cw.rc (datum s i a.left).negative (datum s i a.right).negative))).withDenormal
        (a.denormal s i)) :=
  ran_arith_exact h ho (ArithForm.vacant_of_numbers hn) (ordinary_of_finite (ArithForm.finite_l h hn))
    (ordinary_of_finite (ArithForm.finite_r h hn)) (ArithForm.masked_of_numbers hn)
    ((ArithForm.exactOf_numbers h hn).1 h0) (by simp)

/-- A nonzero result, delivered in the precision of PC. -/
theorem ran_arith_fin (ho : operable s i = true) (h0 : a.exact s i ≠ 0) :
    ∃ m, Exactly m (precisionBits s.npx.cw.pc) |a.exact s i| ∧
      Ends s.npx (s.ran i).npx (Delivered s.npx (s.ran i).npx a.dest a.pops)
        ((deliver s.npx.cw (precisionBits s.npx.cw.pc) (decide (a.exact s i < 0)) m).withDenormal (a.denormal s i)) := by
  obtain ⟨m, he, hm⟩ := (ArithForm.exactOf_numbers h hn).2 h0
  obtain ⟨h1, h64⟩ := precisionBits_bounds s.npx.cw.pc
  exact ⟨m, hm _ h1 h64,
    ran_arith_exact h ho (ArithForm.vacant_of_numbers hn) (ordinary_of_finite (ArithForm.finite_l h hn))
      (ordinary_of_finite (ArithForm.finite_r h hn)) (ArithForm.masked_of_numbers hn) he (by simp)⟩

end

/-- The rounding a statement speaks of, in terms of the sign and the magnitude that `deliver` takes. -/
theorem rounding_of_exactly {v : ℚ} {m : Mag} {p : Nat} (hm : Exactly m p |v|) {rc : BitVec 2} {y : ℚ}
    (hy : IsRounding rc v (ulpExponent p v) y) : IsRounding rc (sgn (decide (v < 0)) * |v|) (m.log2 - p + 1) y := by
  rwa [← eq_sgn_abs, ← hm.rep.log_eq hm.m_ne]

/-- Settles O34: `deliver_normal` of the exact result. -/
theorem arithmeticRoundsCorrectly : Obligations.ArithmeticRoundsCorrectly := by
  unfold Obligations.ArithmeticRoundsCorrectly
  intro i s a y h ho hn v hlo hy hhi
  have h0 : v ≠ 0 := fun h0 => by
    rw [h0, abs_zero] at hlo
    exact absurd hlo (not_le.2 (zpow_pos two_pos _))
  obtain ⟨m, hm, e⟩ := ran_arith_fin h hn ho h0
  obtain ⟨pe, up, x, hd, hpe, hup, hx⟩ := deliver_normal hm (rounding_of_exactly hm hy) hlo hhi
  rw [hd] at e
  rw [← eq_sgn_abs] at hpe hup
  obtain ⟨hc, -, hval⟩ := hx
  refine ⟨_, x, exec_of_operable ho, e.delivers x (by simp), finite_of_normal hc, hval, ?_, ?_⟩
  · have := e.raised
    simpa [eq_decide_of_iff hpe] using this
  · rw [e.c1 up (by simp), eq_decide_of_iff hup]

/-! Zeros and infinities (R263). -/

/-- The class of an operand's pattern, where it is neither a denormal nor what a denormal becomes. -/
theorem Matches.cls_iff {d : Datum} {o : Operand80} (h : Matches d o) {c : Class} (hd : c ≠ .denormal) (hn : c ≠ .normal) :
    classOf o.x = c ↔ d.cls = c := by
  rcases h.cls with hc | ⟨hc, hc'⟩
  · rw [hc]
  · rw [hc, hc']
    exact ⟨fun h => absurd h.symm hn, fun h => absurd h.symm hd⟩

theorem Datum.orderable_iff {d : Datum} {dm : Bool} :
    d.orderable dm = true ↔
      d.empty = false ∧ (d.cls = .zero ∨ d.cls = .normal ∨ (d.cls = .denormal ∧ dm = true) ∨ d.cls = .infinity) := by
  simp only [Datum.orderable, Bool.or_eq_true, Datum.number_iff, Bool.and_eq_true, Bool.not_eq_true', beq_iff_eq]
  tauto

theorem Matches.ordinary {d : Datum} {o : Operand80} (h : Matches d o) {dm : Bool} (hd : d.orderable dm = true) :
    ordinary o.x = true := by
  rw [ordinary_iff]
  obtain ⟨-, hd⟩ := Datum.orderable_iff.1 hd
  rw [Ne, Ne, Ne, h.cls_iff (by decide) (by decide), h.cls_iff (by decide) (by decide), h.cls_iff (by decide) (by decide)]
  rcases hd with hd | hd | ⟨hd, -⟩ | hd <;> simp [hd]

section

variable {a b : Datum} {l r : Operand80} (hl : Matches a l) (hr : Matches b r)
include hl hr

/-- The indeterminate forms of R263. -/
theorem exactOf_of_indeterminate {op : ArithOp} (h : Indeterminate op a b) (rc : BitVec 2) :
    exactOf op rc l.x r.x = .indeterminate := by
  have hli : classOf l.x = .infinity ↔ a.cls = .infinity := hl.cls_iff (by decide) (by decide)
  have hri : classOf r.x = .infinity ↔ b.cls = .infinity := hr.cls_iff (by decide) (by decide)
  have hlz : classOf l.x = .zero ↔ a.cls = .zero := hl.cls_iff (by decide) (by decide)
  have hrz : classOf r.x = .zero ↔ b.cls = .zero := hr.cls_iff (by decide) (by decide)
  cases op with
  | add =>
    obtain ⟨ha, hb, hs⟩ := h
    rw [exactOf, exactAdd, if_pos ⟨hli.2 ha, hri.2 hb⟩, hl.negative, hr.negative, if_neg hs]
  | sub =>
    obtain ⟨ha, hb, hs⟩ := h
    rw [exactOf, exactAdd, classOf_negate, if_pos ⟨hli.2 ha, hri.2 hb⟩, signOf_negate, hl.negative, hr.negative, hs,
      if_neg (Bool.eq_not_self _).1]
  | mul => exact if_pos (h.imp (And.imp hli.2 hrz.2) (And.imp hlz.2 hri.2))
  | div => exact if_pos (h.imp (And.imp hli.2 hri.2) (And.imp hlz.2 hrz.2))

/-- The rows of addition with an infinity. -/
theorem exactAdd_of_infinite (rc : BitVec 2) (hi : a.cls = .infinity ∨ b.cls = .infinity)
    (hn : ¬(a.cls = .infinity ∧ b.cls = .infinity ∧ a.negative ≠ b.negative)) :
    exactAdd rc l.x r.x = .inf (if a.cls = .infinity then a.negative else b.negative) := by
  have hli : classOf l.x = .infinity ↔ a.cls = .infinity := hl.cls_iff (by decide) (by decide)
  have hri : classOf r.x = .infinity ↔ b.cls = .infinity := hr.cls_iff (by decide) (by decide)
  unfold exactAdd
  simp only [hli, hri, hl.negative, hr.negative]
  by_cases ha : a.cls = .infinity
  · by_cases hb : b.cls = .infinity
    · rw [if_pos ⟨ha, hb⟩, if_pos ha, if_pos (by by_contra hs; exact hn ⟨ha, hb, hs⟩)]
    · rw [if_neg fun h => hb h.2, if_pos ha, if_pos ha]
  · rw [if_neg fun h => ha h.1, if_neg ha, if_pos (hi.resolve_left ha), if_neg ha]

/-- The rows of R263 with an infinity. -/
theorem exactResult_of_infinite {op : ArithOp} (rc : BitVec 2) (hi : a.cls = .infinity ∨ b.cls = .infinity)
    (hn : ¬Indeterminate op a b) :
    ∃ e, exactOf op rc l.x r.x = e ∧ e ≠ .indeterminate ∧
      ∀ cw p sg, exactResult cw p sg e = .ok (infiniteResult op a b) := by
  have hli : classOf l.x = .infinity ↔ a.cls = .infinity := hl.cls_iff (by decide) (by decide)
  have hri : classOf r.x = .infinity ↔ b.cls = .infinity := hr.cls_iff (by decide) (by decide)
  have hlz : classOf l.x = .zero ↔ a.cls = .zero := hl.cls_iff (by decide) (by decide)
  have hrz : classOf r.x = .zero ↔ b.cls = .zero := hr.cls_iff (by decide) (by decide)
  cases op with
  | add =>
    refine ⟨_, exactAdd_of_infinite hl hr rc hi hn, by simp, fun cw p sg => ?_⟩
    exact congrArg Result.ok (infinity_eq _)
  | sub =>
    have hr' : Matches { b with negative := !b.negative, value := -b.value, nan := negate b.nan }
        { x := negate r.x, denormal := r.denormal } :=
      { denormal := hr.denormal, cls := by simpa using hr.cls, negative := by simp [hr.negative],
        value := fun hf => by simp [hr.value (by simpa using hf)], nan := fun hc => by simp [hr.nan hc] }
    have e := exactAdd_of_infinite hl hr' rc hi fun hc => hn ⟨hc.1, hc.2.1, by
      simpa using Bool.eq_not_of_ne hc.2.2⟩
    exact ⟨_, e, by simp, fun cw p sg => congrArg Result.ok (infinity_eq _)⟩
  | mul =>
    have hn' : ¬((a.cls = .infinity ∧ b.cls = .zero) ∨ (a.cls = .zero ∧ b.cls = .infinity)) := hn
    have e : exactMul l.x r.x = .inf (a.negative != b.negative) := by
      unfold exactMul
      simp only [hli, hri, hlz, hrz, hl.negative, hr.negative]
      rw [if_neg hn', if_pos hi]
    exact ⟨_, e, by simp, fun cw p sg => congrArg Result.ok (infinity_eq _)⟩
  | div =>
    have hn' : ¬((a.cls = .infinity ∧ b.cls = .infinity) ∨ (a.cls = .zero ∧ b.cls = .zero)) := hn
    by_cases ha : a.cls = .infinity
    · have e : exactDiv l.x r.x = .inf (a.negative != b.negative) := by
        unfold exactDiv
        simp only [hli, hri, hlz, hrz, hl.negative, hr.negative]
        rw [if_neg hn', if_pos ha]
      refine ⟨_, e, by simp, fun cw p sg => ?_⟩
      rw [infiniteResult, if_pos ha, ← infinity_eq]
      rfl
    · have e : exactDiv l.x r.x = .zero (a.negative != b.negative) := by
        unfold exactDiv
        simp only [hli, hri, hlz, hrz, hl.negative, hr.negative]
        rw [if_neg hn', if_neg ha, if_pos (hi.resolve_left ha)]
      refine ⟨_, e, by simp, fun cw p sg => ?_⟩
      rw [infiniteResult, if_neg ha, ← zeroOf_eq]
      rfl

end

theorem vacant_of_present {s : State} {i : Instr} {a : ArithForm} (hl : (datum s i a.left).empty = false)
    (hr : (datum s i a.right).empty = false) : a.vacant s.npx = false := by
  rw [vacant_eq a s i, hl, hr]
  rfl

/-- Settles O35: the rows of R263 for an exact zero and for an infinity. -/
theorem zeroAndInfiniteResults : Obligations.ZeroAndInfiniteResults := by
  unfold Obligations.ZeroAndInfiniteResults
  refine ⟨fun i s a h ho hn h0 => ?zero, fun i s a h ho hl hr hi hn => ?infinite⟩
  case zero =>
    have e := ran_arith_zero h hn ho h0
    rw [zeroOf_eq] at e
    exact ⟨_, exec_of_operable ho, e.delivers _ (by simp [Result.ok]), by simpa [Result.ok] using e.raised, e.c1 false (by simp [Result.ok])⟩
  case infinite =>
    have hml := left_matches h s
    have hmr := right_matches h s
    obtain ⟨x, hx, hne, hres⟩ := exactResult_of_infinite hml hmr s.npx.cw.rc hi hn
    have hd : a.denormal s i = true → s.npx.cw.dm = true := by
      intro hd
      have hl' := (Datum.orderable_iff.1 hl).2
      have hr' := (Datum.orderable_iff.1 hr).2
      simp only [ArithForm.denormal, Bool.or_eq_true, beq_iff_eq] at hd
      rcases hd with hd | hd
      · simpa [hd] using hl'
      · simpa [hd] using hr'
    have e := ran_arith_exact h ho (vacant_of_present (Datum.orderable_iff.1 hl).1 (Datum.orderable_iff.1 hr).1)
      (hml.ordinary hl) (hmr.ordinary hr) hd hx hne
    rw [hres] at e
    exact ⟨_, exec_of_operable ho, e.delivers _ (by simp [Result.ok]), by simpa [Result.ok] using e.raised, e.c1 false (by simp [Result.ok])⟩

/-- Settles O37: the rows of R263 for a zero divisor and for the indeterminate forms. -/
theorem divisionByZeroAndIndeterminateForms : Obligations.DivisionByZeroAndIndeterminateForms := by
  unfold Obligations.DivisionByZeroAndIndeterminateForms
  refine ⟨fun i s a h hop ho hl h0 hr hz => ?zeroDivide, fun i s a h ho hl hr hi => ?indeterminate⟩
  case zeroDivide =>
    have hml := left_matches h s
    have hmr := right_matches h s
    have hfl : finite (a.l s i).x = true := hml.finite hl
    have hfr : finite (a.r s i).x = true := hmr.finite hr
    have hrz : classOf (a.r s i).x = .zero := (hmr.cls_iff (by decide) (by decide)).2 hz
    have hlz : classOf (a.l s i).x ≠ .zero := by
      rw [Ne, classOf_zero_iff_val hfl]
      exact fun hv => h0 ((hml.value hfl).symm.trans hv)
    have he : exactOf a.op s.npx.cw.rc (a.l s i).x (a.r s i).x = .zeroDivide := by
      rw [hop]
      simp [exactOf, exactDiv, classOf_ne_infinity hfl, hrz, hlz]
    have hd : a.denormal s i = true → s.npx.cw.dm = true := by
      intro hd
      rcases Bool.or_eq_true_iff.1 hd with hd | hd
      · exact Datum.number_masked hl hd
      · exact Datum.number_masked hr hd
    have e := ran_arith_exact h ho (vacant_of_present (Datum.number_iff.1 hl).1 (Datum.number_iff.1 hr).1)
      (ordinary_of_finite hfl) (ordinary_of_finite hfr) hd he (by simp)
    rw [exactResult, hml.negative, hmr.negative,
      infinity_eq] at e
    refine ⟨_, exec_of_operable ho, by simpa [Result.zeroDivide] using e.raised,
      fun hm => ⟨e.c1 false (by simp; rfl), e.delivers _ ?_⟩, fun hm => e.aborts ?_⟩
    · simp [Result.zeroDivide, hm]
    · simp [Result.zeroDivide, hm]
  case indeterminate =>
    have hml := left_matches h s
    have hmr := right_matches h s
    have hcls : (datum s i a.left).orderable true = true ∧ (datum s i a.right).orderable true = true := by
      rw [Datum.orderable_iff, Datum.orderable_iff, hl, hr]
      revert hi
      unfold Indeterminate
      cases a.op <;> grind
    have e := ran_arith h ho (vacant_of_present hl hr)
    rw [binop, Result.twoOperands_of_ordinary (hml.ordinary hcls.1) (hmr.ordinary hcls.2),
      exactOf_of_indeterminate hml hmr hi s.npx.cw.rc, if_pos rfl] at e
    exact ⟨_, exec_of_operable ho, e.raised, e.c1 false rfl, e.invalid_response rfl⟩

end Sys2Proof.Machine
end

section
/-! PROOFS. Overflow and underflow of FADD, FSUB, FSUBR, FMUL, FDIV and FDIVR, masked and unmasked (spec/40_numerics_common.md
R163, R165, R174). -/

namespace Sys2Proof.Machine

/-! The table of R163. -/

theorem overflowsToInfinity_iff (rc : BitVec 2) (neg : Bool) :
    overflowsToInfinity rc neg = true ↔ rc = 0 ∨ (rc = 1 ∧ neg = true) ∨ (rc = 2 ∧ neg = false) := by
  revert rc neg
  decide

/-- The largest finite numbers of the three precisions. -/
theorem largestFinite_eq (neg : Bool) (pc : BitVec 2) :
    largestFinite neg (precisionBits pc) = BitVec.ofBool neg ++ (0x7FFE : BitVec 15) ++
      (if pc = 0 then 0xFFFFFF0000000000 else if pc = 2 then 0xFFFFFFFFFFFFF800 else 0xFFFFFFFFFFFFFFFF : BitVec 64) := by
  revert pc neg
  decide

/-- A masked overflow. -/
theorem deliverOverflow_masked {cw : ControlWord} (h : cw.om = true) (p : Nat) (neg : Bool) (u : Int) (r : Rounded) :
    deliverOverflow cw p neg u r =
      { signals := { oe := true, pe := true },
        val := some (if overflowsToInfinity cw.rc neg then infinity neg else largestFinite neg p),
        c1 := .set (overflowsToInfinity cw.rc neg) } := by
  rw [deliverOverflow, if_pos h]

/-- Settles O38: `deliver_overflow` with overflow masked. -/
theorem maskedOverflowTable : Obligations.MaskedOverflowTable := by
  unfold Obligations.MaskedOverflowTable
  intro i s a y h ho hn hom v neg inf h0 hy hhi
  obtain ⟨m, hm, e⟩ := ran_arith_fin h hn ho h0
  rw [deliver_overflow hm (rounding_of_exactly hm hy) hhi, deliverOverflow_masked hom] at e
  have hi : overflowsToInfinity s.npx.cw.rc neg = true ↔ inf := overflowsToInfinity_iff _ _
  refine ⟨_, exec_of_operable ho, fun hinf => ?_, fun hinf => ?_, by simpa using e.raised⟩
  · have ht := hi.2 hinf
    rw [ht] at e
    exact ⟨e.delivers _ (by simp [infinity_eq, neg, v]), e.c1 true (by simp)⟩
  · have hf : overflowsToInfinity s.npx.cw.rc neg = false := Bool.eq_false_iff.2 fun ht => hinf (hi.1 ht)
    rw [hf] at e
    exact ⟨e.c1 false (by simp), e.delivers _ (by simp [largestFinite_eq, neg, v])⟩

/-- Settles O39: `deliver_underflow_masked` of the exact result. -/
theorem maskedUnderflowDenormalizes : Obligations.MaskedUnderflowDenormalizes := by
  unfold Obligations.MaskedUnderflowDenormalizes
  intro i s a y h ho hn hum v h0 hy hlo
  obtain ⟨m, hm, e⟩ := ran_arith_fin h hn ho h0
  obtain ⟨lost, up, x, hd, hlost, hup, hf, hs, hr⟩ :=
    deliver_underflow_masked hm (rounding_of_exactly hm hy) hlo hum
  rw [hd] at e
  rw [← eq_sgn_abs] at hlost hup hr
  rw [Rat.cast_id] at hlost hup hr
  refine ⟨_, x, exec_of_operable ho, e.delivers x (by simp), hf, hs, hr, ?_, ?_⟩
  · have := e.raised
    simpa [eq_decide_of_iff hlost] using this
  · rw [e.c1 up (by simp), eq_decide_of_iff hup]

/-! The range of an exact result: the adjusted exponent of R163 and R165 always brings it back into range. -/

theorem abs_add_bounds {a b : Ext} (ha : finite a = true) (hb : finite b = true) (h0 : val a + val b ≠ 0) :
    (2 : ℚ) ^ (-16445 : ℤ) ≤ |val a + val b| ∧ |val a + val b| < (2 : ℚ) ^ (16385 : ℤ) := by
  have hp : (0 : ℚ) < 2 ^ (16445 : ℤ) := zpow_pos two_pos _
  constructor
  · have hsum : ((fixed a + fixed b : ℤ) : ℚ) = (val a + val b) * 2 ^ (16445 : ℤ) := by
      rw [Int.cast_add, fixed_eq, fixed_eq, add_mul]
    have hne : fixed a + fixed b ≠ 0 := fun hz => by
      rw [hz, Int.cast_zero, eq_comm, mul_eq_zero, or_iff_left hp.ne'] at hsum
      exact h0 hsum
    have h1 : (1 : ℚ) ≤ |((fixed a + fixed b : ℤ) : ℚ)| := by
      rw [← Int.cast_abs]
      exact_mod_cast Int.one_le_abs hne
    rw [hsum, abs_mul, abs_of_pos hp] at h1
    rw [zpow_neg]
    exact (inv_le_iff_one_le_mul₀ hp).2 h1
  · have h2 : (2 : ℚ) ^ (16385 : ℤ) = 2 ^ (16384 : ℤ) + 2 ^ (16384 : ℤ) := by
      rw [← two_mul, show (16385 : ℤ) = 16384 + 1 by norm_num, zpow_add_one₀ two_ne_zero, mul_comm]
    rw [h2]
    exact (abs_add_le _ _).trans_lt (add_lt_add (abs_val_lt ha) (abs_val_lt hb))

theorem abs_mul_bounds {a b : Ext} (ha : finite a = true) (hb : finite b = true) (h0 : val a * val b ≠ 0) :
    (2 : ℚ) ^ (-32890 : ℤ) ≤ |val a * val b| ∧ |val a * val b| < (2 : ℚ) ^ (32768 : ℤ) := by
  obtain ⟨ha0, hb0⟩ := mul_ne_zero_iff.1 h0
  have hlo : (2 : ℚ) ^ (-32890 : ℤ) = 2 ^ (-16445 : ℤ) * 2 ^ (-16445 : ℤ) := by
    rw [← zpow_add₀ two_ne_zero]; norm_num
  have hhi : (2 : ℚ) ^ (32768 : ℤ) = 2 ^ (16384 : ℤ) * 2 ^ (16384 : ℤ) := by
    rw [← zpow_add₀ two_ne_zero]; norm_num
  rw [abs_mul, hlo, hhi]
  exact ⟨mul_le_mul (le_abs_val ha0) (le_abs_val hb0) (zpow_pos two_pos _).le (abs_nonneg _),
    mul_lt_mul'' (abs_val_lt ha) (abs_val_lt hb) (abs_nonneg _) (abs_nonneg _)⟩

theorem abs_div_bounds {a b : Ext} (ha : finite a = true) (hb : finite b = true) (h0 : val a / val b ≠ 0) :
    (2 : ℚ) ^ (-32829 : ℤ) ≤ |val a / val b| ∧ |val a / val b| < (2 : ℚ) ^ (32829 : ℤ) := by
  obtain ⟨ha0, hb0⟩ := div_ne_zero_iff.1 h0
  have hbpos : 0 < |val b| := abs_pos.2 hb0
  have hp (k : ℤ) : (0 : ℚ) < 2 ^ k := zpow_pos two_pos k
  rw [abs_div, le_div_iff₀ hbpos, div_lt_iff₀ hbpos]
  constructor
  · calc (2 : ℚ) ^ (-32829 : ℤ) * |val b| ≤ 2 ^ (-32829 : ℤ) * 2 ^ (16384 : ℤ) :=
          mul_le_mul_of_nonneg_left (abs_val_lt hb).le (hp _).le
      _ = 2 ^ (-16445 : ℤ) := by rw [← zpow_add₀ two_ne_zero]; norm_num
      _ ≤ |val a| := le_abs_val ha0
  · calc |val a| < 2 ^ (16384 : ℤ) := abs_val_lt ha
      _ = 2 ^ (32829 : ℤ) * 2 ^ (-16445 : ℤ) := by rw [← zpow_add₀ two_ne_zero]; norm_num
      _ ≤ 2 ^ (32829 : ℤ) * |val b| := mul_le_mul_of_nonneg_left (le_abs_val hb0) (hp _).le

theorem apply_bounds (op : ArithOp) {a b : Ext} (ha : finite a = true) (hb : finite b = true)
    (h0 : op.apply (val a) (val b) ≠ 0) :
    (2 : ℚ) ^ (-40957 : ℤ) ≤ |op.apply (val a) (val b)| ∧ |op.apply (val a) (val b)| < (2 : ℚ) ^ (40958 : ℤ) := by
  have key {lo hi : ℤ} {v : ℚ} (h : (2 : ℚ) ^ lo ≤ |v| ∧ |v| < (2 : ℚ) ^ hi) (h1 : -40957 ≤ lo) (h2 : hi ≤ 40958) :
      (2 : ℚ) ^ (-40957 : ℤ) ≤ |v| ∧ |v| < (2 : ℚ) ^ (40958 : ℤ) :=
    ⟨(two_zpow_le_two_zpow.2 h1).trans h.1, h.2.trans_le (two_zpow_le_two_zpow.2 h2)⟩
  cases op with
  | add => exact key (abs_add_bounds ha hb h0) (by norm_num) (by norm_num)
  | sub =>
    have h := abs_add_bounds ha (b := negate b) (by rwa [finite_negate]) (by rwa [val_negate, ← sub_eq_add_neg])
    rw [val_negate, ← sub_eq_add_neg] at h
    exact key h (by norm_num) (by norm_num)
  | mul => exact key (abs_mul_bounds ha hb h0) (by norm_num) (by norm_num)
  | div => exact key (abs_div_bounds ha hb h0) (by norm_num) (by norm_num)

theorem ArithForm.exact_bounds {i : Instr} {s : State} {a : ArithForm} (h : arithForm i = some a) (hn : a.numbers s i)
    (h0 : a.exact s i ≠ 0) :
    (2 : ℚ) ^ (-40957 : ℤ) ≤ |a.exact s i| ∧ |a.exact s i| < (2 : ℚ) ^ (40958 : ℤ) := by
  rw [← exact_eq h hn] at h0 ⊢
  exact apply_bounds a.op (finite_l h hn) (finite_r h hn) h0

/-- A number below a power of two rounds to at most that power. -/
theorem Exactly.abs_lt_of_lt {K : Type} [Field K] [LinearOrder K] [IsStrictOrderedRing K] {v : Mag} {p : Nat} {a y : K}
    (h : Exactly v p a) {rc : BitVec 2} {neg : Bool} (hy : IsRounding rc (sgn neg * a) (v.log2 - p + 1) y) {k : ℤ}
    (hk : a < (2 : K) ^ k) : |y| < (2 : K) ^ (k + 1) := by
  have hlog := h.log2_lt hk
  obtain ⟨-, hq⟩ := h.bits rc neg
  have hql : (roundTo rc neg p v).q.log2 ≤ p := by
    by_contra hc
    have h1 := Nat.log2_self_le (h.fits rc neg).1
    have h2 : 2 ^ (p + 1) ≤ 2 ^ (roundTo rc neg p v).q.log2 := Nat.pow_le_pow_right (by norm_num) (by omega)
    rw [pow_succ] at h2
    have : 0 < 2 ^ p := by positivity
    omega
  rw [← h.exponent_lt_iff hy]
  omega

theorem Signals.unmasked_of_oe {g : Signals} {cw : ControlWord} (h : g.oe = true) (hm : cw.om = false) :
    g.unmasked cw = true := by simp [Signals.unmasked, h, hm]

theorem Signals.unmasked_of_ue {g : Signals} {cw : ControlWord} (h : g.ue = true) (hm : cw.um = false) :
    g.unmasked cw = true := by simp [Signals.unmasked, h, hm]

/-- ES and B after an unmasked exception (R28, R170). -/
theorem Ends.es_b {α : Type} {x y : Npx} {done : α → Prop} {r : Result α} (h : Ends x y done r)
    (hu : r.signals.unmasked x.cw = true) : y.sw.es = true ∧ y.sw.b = true :=
  ⟨by rw [h.es, hu, Bool.or_true], by rw [h.b, hu, Bool.or_true]⟩

/-- Settles O40: the exponent of a result that is out of range by at most 2^24576 is adjusted. -/
theorem unmaskedOverflowAndUnderflow : Obligations.UnmaskedOverflowAndUnderflow := by
  unfold Obligations.UnmaskedOverflowAndUnderflow
  intro i s a y h ho hn v h0 hy
  obtain ⟨m, hm, e⟩ := ran_arith_fin h hn ho h0
  obtain ⟨hvlo, hvhi⟩ := ArithForm.exact_bounds h hn h0
  have hr := rounding_of_exactly hm hy
  refine ⟨fun hom hhi => ?overflow, fun hum hlo => ?underflow⟩
  case overflow =>
    obtain ⟨pe, up, x, hd, hpe, hup, hx, -⟩ := deliver_overflow_unmasked hm hr hhi hom
    obtain ⟨hc, -, hval⟩ := hx ((hm.abs_lt_of_lt hr hvhi).trans_le (two_zpow_le_two_zpow.2 (by norm_num)))
    rw [hd] at e
    rw [← eq_sgn_abs] at hpe hup
    obtain ⟨hes, hb⟩ := e.es_b (Signals.unmasked_of_oe (by simp) hom)
    refine ⟨_, x, exec_of_operable ho, e.delivers x (by simp), finite_of_normal hc, ?_, ?_, ?_, hes, hb⟩
    · rw [Rat.cast_id] at hval
      rw [hval, div_mul_cancel₀ _ (zpow_ne_zero _ two_ne_zero)]
    · have := e.raised
      simpa [eq_decide_of_iff hpe] using this
    · rw [e.c1 up (by simp), eq_decide_of_iff hup]
  case underflow =>
    obtain ⟨pe, up, x, hd, hpe, hup, hx, -⟩ := deliver_underflow_unmasked hm hr hlo hum
    obtain ⟨hc, -, hval⟩ := hx ((two_zpow_le_two_zpow.2 (by norm_num)).trans (hm.le_abs_of_le hr hvlo))
    rw [hd] at e
    rw [← eq_sgn_abs] at hpe hup
    obtain ⟨hes, hb⟩ := e.es_b (Signals.unmasked_of_ue (by simp) hum)
    refine ⟨_, x, exec_of_operable ho, e.delivers x (by simp), finite_of_normal hc, hval, ?_, ?_, hes, hb⟩
    · have := e.raised
      simpa [eq_decide_of_iff hpe] using this
    · rw [e.c1 up (by simp), eq_decide_of_iff hup]

end Sys2Proof.Machine
end

section
/-! PROOFS. Comparisons (spec/42_comparison.md R230 to R245) and the loads with conversion (spec/41_data_transfer.md R226 to
R228). -/

namespace Sys2Proof.Machine

/-! The affine order (R143, R230 step 5). -/

/-- The value formula puts an infinity at plus or minus 2^16384, beyond every number. -/
theorem abs_val_of_infinity {x : Ext} (h : classOf x = .infinity) : |val x| = (2 : ℚ) ^ (16384 : ℤ) := by
  obtain ⟨hb, hs⟩ := (classOf_infinity_iff x).1 h
  rw [abs_val, hs, trueExp, hb, show (((2 ^ 63 : Nat) : ℚ)) = 2 ^ (63 : ℤ) by norm_num, ← zpow_add₀ two_ne_zero]
  rfl

/-- Where an operand stands on the affine line, and where its pattern's value does. -/
inductive Placed (b : ℚ) : WithBot (WithTop ℚ) → ℚ → Prop where
  | top : Placed b ((⊤ : WithTop ℚ) : WithBot (WithTop ℚ)) b
  | bot : Placed b ⊥ (-b)
  | number {v : ℚ} (h : |v| < b) : Placed b ((v : WithTop ℚ) : WithBot (WithTop ℚ)) v

theorem Placed.lt_iff {b : ℚ} (hb : 0 < b) {x y : WithBot (WithTop ℚ)} {v w : ℚ} (hx : Placed b x v) (hy : Placed b y w) :
    x < y ↔ v < w := by
  cases hx with
  | top =>
    cases hy with
    | top => simp
    | bot => simpa using hb.le
    | number h => simpa using (abs_lt.1 h).2.le
  | bot =>
    cases hy with
    | top => simpa using hb
    | bot => simp
    | number h => simpa using (abs_lt.1 h).1
  | number h =>
    cases hy with
    | top => exact iff_of_true (WithBot.coe_lt_coe.2 (WithTop.coe_lt_top _)) (abs_lt.1 h).2
    | bot => simpa using (abs_lt.1 h).1.le
    | number h' => simp

theorem Placed.eq_iff {b : ℚ} (hb : 0 < b) {x y : WithBot (WithTop ℚ)} {v w : ℚ} (hx : Placed b x v) (hy : Placed b y w) :
    x = y ↔ v = w := by
  rw [eq_iff_le_not_lt, eq_iff_le_not_lt, ← not_lt, ← not_lt, hx.lt_iff hb hy, hy.lt_iff hb hx]

theorem Matches.placed {d : Datum} {o : Operand80} (h : Matches d o) {dm : Bool} (hd : d.orderable dm = true) :
    Placed (2 ^ (16384 : ℤ)) d.affine (val o.x) := by
  unfold Datum.affine
  by_cases hi : d.cls = .infinity
  · have hv := val_eq_sgn o.x
    rw [abs_val_of_infinity ((h.cls_iff (by decide) (by decide)).2 hi), h.negative] at hv
    rw [if_pos hi, hv]
    cases d.negative with
    | true => rw [sgn_true, neg_one_mul]; exact .bot
    | false => rw [sgn_false, one_mul]; exact .top
  · have hn : d.number dm = true := by
      have := (Datum.orderable_iff.1 hd)
      rw [Datum.number_iff]
      tauto
    rw [if_neg hi, h.value (h.finite hn)]
    exact .number ((h.value (h.finite hn)) ▸ abs_val_lt (h.finite hn))

theorem fixed_lt_iff (x y : Ext) : fixed x < fixed y ↔ val x < val y := by
  rw [← Int.cast_lt (R := ℚ), fixed_eq, fixed_eq, mul_lt_mul_iff_left₀ (zpow_pos two_pos _)]

theorem compareValues_spec (x y : Ext) :
    (compareValues x y).c2 = false ∧ ((compareValues x y).c0 = true ↔ val x < val y) ∧
      ((compareValues x y).c3 = true ↔ val x = val y) := by
  unfold compareValues
  simp only [fixed_lt_iff]
  split
  case isTrue h => exact ⟨rfl, by simpa using h.le, by simpa using h.ne'⟩
  case isFalse h =>
    split
    case isTrue h' => exact ⟨rfl, by simpa using h', by simpa using h'.ne⟩
    case isFalse h' => exact ⟨rfl, by simpa using h', by simpa using le_antisymm (not_lt.1 h) (not_lt.1 h')⟩

/-- The code of two operands in their affine order. -/
theorem orderCode_of_compareValues {a b : Datum} {l r : Operand80} (hl : Matches a l) (hr : Matches b r) {dm : Bool}
    (ha : a.orderable dm = true) (hb : b.orderable dm = true) {w : StatusWord}
    (h3 : w.c3 = (compareValues l.x r.x).c3) (h2 : w.c2 = (compareValues l.x r.x).c2)
    (h0 : w.c0 = (compareValues l.x r.x).c0) : OrderCode w a.affine b.affine := by
  have hp : (0 : ℚ) < 2 ^ (16384 : ℤ) := zpow_pos two_pos _
  obtain ⟨hc2, hc0, hc3⟩ := compareValues_spec l.x r.x
  refine ⟨h2.trans hc2, ?_, ?_⟩
  · rw [h0, hc0, (hl.placed ha).lt_iff hp (hr.placed hb)]
  · rw [h3, hc3, (hl.placed ha).eq_iff hp (hr.placed hb)]

/-! What a comparison decides (R230). -/

theorem compareOperands_of_ordinary {cw : ControlWord} {l r : Operand80} (hl : ordinary l.x = true) (hr : ordinary r.x = true)
    (ord : Bool) : compareOperands cw ord l r = .denormal cw (l.denormal || r.denormal) (.ok (compareValues l.x r.x)) := by
  obtain ⟨hl1, hl2, hl3⟩ := (ordinary_iff _).1 hl
  obtain ⟨hr1, hr2, hr3⟩ := (ordinary_iff _).1 hr
  unfold compareOperands
  simp [hl1, hl2, hl3, hr1, hr2, hr3]

section

variable {i : Instr} {q : Source} {pops : Nat} (h : compareForm i = some (q, pops)) (s : State)
include h

theorem compared_matches : Matches (datum s i q) (q.operand s.npx (operandBytes s i)) :=
  datum_matches (memNumber_of_compare h)

/-- A comparison of operands that are there ends as `compareOperands` decides. -/
theorem ran_compareOperands (h0 : s.npx.empty 0 = false) (hq : (datum s i q).empty = false) :
    Ends s.npx (s.ran i).npx
      (fun c => Popped pops s.npx (s.ran i).npx ∧ (s.ran i).npx.sw.c3 = c.c3 ∧ (s.ran i).npx.sw.c2 = c.c2 ∧
        (s.ran i).npx.sw.c0 = c.c0)
      (compareOperands s.npx.cw (ordered i) (s.npx.operand 0) (q.operand s.npx (operandBytes s i))) := by
  have e := ran_compare (s := s) h
  rw [compareResult, compareVacant_eq q s i, h0, hq] at e
  exact e

end

/-- ST(0) as an operand. -/
theorem top_matches (s : State) (i : Instr) : Matches (datum s i (.reg 0)) (s.npx.operand 0) :=
  ⟨rfl, .inl rfl, rfl, fun _ => rfl, fun _ => rfl⟩

/-- Settles O31: the code of `compareValues` is the affine order of the operands' values. -/
theorem comparisonsOrder : Obligations.ComparisonsOrder := by
  unfold Obligations.ComparisonsOrder
  intro i s q pops h ho x y den
  have hx := top_matches s i
  have hy := compared_matches h s
  have hden : ((s.npx.operand 0).denormal || (q.operand s.npx (operandBytes s i)).denormal) = den := by
    rw [hx.denormal, hy.denormal]
  have hend {dm : Bool} (hox : x.orderable dm = true) (hoy : y.orderable dm = true) :=
    ran_compareOperands h s (Datum.orderable_iff.1 hox).1 (Datum.orderable_iff.1 hoy).1
  refine ⟨fun hox hoy => ?ordered, fun hox hoy hd hm => ?denormal⟩
  case ordered =>
    have e := hend hox hoy
    have hm : den = true → s.npx.cw.dm = true := by
      intro hd
      have hx' := (Datum.orderable_iff.1 hox).2
      have hy' := (Datum.orderable_iff.1 hoy).2
      rcases Bool.or_eq_true_iff.1 hd with hd | hd
      · simpa [beq_iff_eq.1 hd] using hx'
      · simpa [beq_iff_eq.1 hd] using hy'
    rw [compareOperands_of_ordinary (hx.ordinary hox) (hy.ordinary hoy), hden, Result.denormal_masked _ _ _ hm] at e
    obtain ⟨hpop, h3, h2, h0⟩ := e.delivers _ (by simp [Result.ok]; rfl)
    exact ⟨_, exec_of_operable ho, orderCode_of_compareValues hx hy hox hoy h3 h2 h0, e.c1 false (by simp [Result.ok]),
      by simpa [Result.ok] using e.raised, hpop⟩
  case denormal =>
    have e := hend hox hoy
    rw [compareOperands_of_ordinary (hx.ordinary hox) (hy.ordinary hoy), hden, Result.denormal_unmasked _ _ _ hd hm] at e
    exact ⟨_, exec_of_operable ho, e.c1 false rfl, e.raised, popped_zero (e.aborts rfl)⟩

/-- A NaN or an unsupported operand (R230 steps 3 and 4). -/
theorem compareOperands_unordered {a b : Datum} {l r : Operand80} (hl : Matches a l) (hr : Matches b r) (cw : ControlWord)
    (ord : Bool) {bad : Bool}
    (hbad : bad = (a.cls == .snan || b.cls == .snan || a.cls == .unsupported || b.cls == .unsupported))
    (h : bad = true ∨ a.cls = .qnan ∨ b.cls = .qnan) :
    compareOperands cw ord l r = if ord || bad then .invalid cw .unordered else .ok .unordered := by
  have hls : classOf l.x = .snan ↔ a.cls = .snan := hl.cls_iff (by decide) (by decide)
  have hrs : classOf r.x = .snan ↔ b.cls = .snan := hr.cls_iff (by decide) (by decide)
  have hlq : classOf l.x = .qnan ↔ a.cls = .qnan := hl.cls_iff (by decide) (by decide)
  have hrq : classOf r.x = .qnan ↔ b.cls = .qnan := hr.cls_iff (by decide) (by decide)
  have hlu : classOf l.x = .unsupported ↔ a.cls = .unsupported := hl.cls_iff (by decide) (by decide)
  have hru : classOf r.x = .unsupported ↔ b.cls = .unsupported := hr.cls_iff (by decide) (by decide)
  have hb' : bad = true ↔ a.cls = .snan ∨ b.cls = .snan ∨ a.cls = .unsupported ∨ b.cls = .unsupported := by
    rw [hbad]
    simp [or_assoc]
  unfold compareOperands
  simp only [Bool.or_eq_true, Bool.and_eq_true, beq_iff_eq, hls, hrs, hlq, hrq, hlu, hru]
  by_cases hob : ord = true ∨ bad = true
  · rw [if_pos hob, if_pos (by grind)]
  · rw [if_neg hob, if_neg (by grind), if_pos (h.resolve_left fun hb => hob (.inr hb))]

/-- Settles O32: `compareOperands_unordered`. -/
theorem unorderedComparisons : Obligations.UnorderedComparisons := by
  unfold Obligations.UnorderedComparisons
  intro i s q pops h ho x y bad hex hey hc
  have e := ran_compareOperands h s hex hey
  rw [compareOperands_unordered (top_matches s i) (compared_matches h s) s.npx.cw (ordered i) rfl hc] at e
  cases hob : ordered i || bad with
  | true =>
    rw [show (ordered i || _) = true from hob, if_pos rfl] at e
    have resp := e.invalid_response (cw := s.npx.cw) rfl
    refine ⟨_, exec_of_operable ho, e.c1 false rfl, e.raised, fun hm => ?_, fun _ hm => popped_zero (resp.2 hm)⟩
    obtain ⟨hpop, h3, h2, h0⟩ := resp.1 (hm.resolve_left fun hf => by simp [hf] at hob)
    exact ⟨h3, h2, h0, hpop⟩
  | false =>
    rw [show (ordered i || _) = false from hob, if_neg Bool.false_ne_true] at e
    obtain ⟨hpop, h3, h2, h0⟩ := e.delivers _ rfl
    obtain ⟨hof, hbf⟩ := Bool.or_eq_false_iff.1 hob
    refine ⟨_, exec_of_operable ho, e.c1 false rfl, e.raised, fun _ => ⟨h3, h2, h0, hpop⟩, fun hb => ?_⟩
    simp [hof, hbf] at hb

/-! Loads with conversion (R226 to R229). -/

/-- An infinity is the one pattern of its sign (R142). -/
theorem eq_infinityBits {x : Ext} (h : classOf x = .infinity) : x = infinityBits (signOf x) := by
  obtain ⟨hb, hs⟩ := (classOf_infinity_iff x).1 h
  rw [← infinity_eq, infinity, ← hb, ← hs, ext_fields]

theorem loaded_matches {i : Instr} {k : MemNumber} (h : numberLoad i = some k) (s : State) :
    Matches (datum s i (.mem k)) ((Source.mem k).operand s.npx (operandBytes s i)) := by
  refine datum_matches fun k' hk => ?_
  cases hk
  cases i <;> cases h <;> rfl

/-- A load signals a signaling NaN or a denormal, and else pushes its pattern. -/
theorem pushedValue_of_numberLoad {i : Instr} {k : MemNumber} (h : numberLoad i = some k) (s : State) :
    let o := (Source.mem k).operand s.npx (operandBytes s i)
    pushedValue i s.npx (operandBytes s i) =
      if classOf o.x = .snan then .invalid s.npx.cw (quiet o.x) else .denormal s.npx.cw o.denormal (.ok o.x) := by
  have hm := loaded_matches h s
  unfold pushedValue
  rw [h]
  cases k with
  | real f => rfl
  | int n =>
    refine (if_neg fun hc => ?_).symm
    have hs := (hm.cls_iff (c := .snan) (by decide) (by decide)).1 hc
    revert hs
    show (if _ then Class.zero else Class.normal) = Class.snan → False
    split <;> exact fun h => by cases h

theorem ran_numberLoad {i : Instr} {k : MemNumber} (h : numberLoad i = some k) {s : State} (hf : s.npx.full = false) :
    Ends s.npx (s.ran i).npx (Pushed s.npx (s.ran i).npx) (pushedValue i s.npx (operandBytes s i)) := by
  have hp : pushesOne i = true := by cases i <;> cases h <;> rfl
  have e := ran_push (s := s) hp
  have hr : pushResult i s.npx (operandBytes s i) = pushedValue i s.npx (operandBytes s i) := by
    cases i <;> cases h <;> exact if_neg (ne_true_of_eq_false hf)
  rwa [hr] at e

theorem bcdValue_eq (n y : Nat) : bcdValue n y = ((List.range n).map fun k => y / 16 ^ k % 16 * 10 ^ k).sum := by
  induction n generalizing y with
  | zero => rfl
  | succ n ih =>
    rw [bcdValue, ih, List.range_succ_eq_map, List.map_cons, List.sum_cons, List.map_map, ← List.sum_map_mul_left]
    congr 1
    · simp
    · congr 1
      refine List.map_congr_left fun k _ => ?_
      simp only [Function.comp_apply, Nat.succ_eq_add_one]
      rw [Nat.div_div_eq_div_mul, ← pow_succ', pow_succ 10]
      ring

/-- Eighteen digits of four bits fit a significand. -/
theorem bcdValue_lt (n y : Nat) : bcdValue n y + 2 ≤ 2 * 10 ^ n := by
  induction n generalizing y with
  | zero => rfl
  | succ n ih =>
    have := ih (y / 16)
    have : y % 16 < 16 := Nat.mod_lt _ (by norm_num)
    rw [bcdValue, pow_succ]
    omega

theorem decimalVal_eq (y : Nat) : (decimalVal y : ℚ) = sgn (y.testBit 79) * (bcdValue 18 y : ℚ) := by
  rw [decimalVal, ← bcdValue_eq]
  cases y.testBit 79 with
  | true => rw [if_pos rfl, sgn_true]; push_cast; rfl
  | false => rw [if_neg Bool.false_ne_true, sgn_false]; push_cast; rfl

theorem bcdToExt_eq (y : Nat) : bcdToExt y = encodeNat (y.testBit 79) (bcdValue 18 y) := by
  rw [bcdToExt, Nat.testBit_eq_decide_div_mod_eq]
  rfl

theorem bcdToExt_spec (y : Nat) :
    finite (bcdToExt y) = true ∧ signOf (bcdToExt y) = y.testBit 79 ∧ val (bcdToExt y) = decimalVal y := by
  have hlt := bcdValue_lt 18 y
  rw [bcdToExt_eq, decimalVal_eq]
  exact encodeNat_spec (y.testBit 79) (by omega)

/-- Settles O24: each kind of operand, by its class. -/
theorem numberLoadsAreExact : Obligations.NumberLoadsAreExact := by
  unfold Obligations.NumberLoadsAreExact
  refine ⟨fun i s k h ho hf => ?numbers, fun p m s ho hf => ?decimal⟩
  case numbers =>
    have hm := loaded_matches h s
    have hv := pushedValue_of_numberLoad h s
    have e := ran_numberLoad h hf
    dsimp only at hv
    generalize (Source.mem k).operand s.npx (operandBytes s i) = o at hm hv
    refine ⟨_, exec_of_operable ho, ?c1, fun hn => ?number, fun hd hdm => ?denormal, fun hi => ?infinity, fun hq => ?qnan,
      fun hs => ?snan⟩
    case c1 =>
      refine e.c1 false ?_
      rw [hv]
      unfold Result.denormal
      split_ifs <;> simp [Result.invalid, Result.denormalAbort, Result.ok]
    case number =>
      have hfin := hm.finite hn
      have hden : o.denormal = true → s.npx.cw.dm = true := fun hd => Datum.number_masked hn (hm.denormal ▸ hd)
      rw [hv, if_neg ((ordinary_iff _).1 (ordinary_of_finite hfin)).2.1, Result.denormal_masked _ _ _ hden, hm.denormal] at e
      exact ⟨by simpa [Result.ok] using e.raised, o.x, e.delivers _ (by simp [Result.ok]), hfin, hm.value hfin, hm.negative⟩
    case denormal =>
      have hc : classOf o.x ≠ .snan := by rw [Ne, hm.cls_iff (by decide) (by decide), hd]; decide
      have hden : o.denormal = true := by rw [hm.denormal, hd]; rfl
      rw [hv, if_neg hc, Result.denormal_unmasked _ _ _ hden hdm] at e
      exact ⟨e.raised, e.aborts rfl⟩
    case infinity =>
      have hc : classOf o.x = .infinity := (hm.cls_iff (by decide) (by decide)).2 hi
      have hden : o.denormal = false := by rw [hm.denormal, hi]; rfl
      rw [hv, if_neg (by rw [hc]; decide), hden] at e
      refine ⟨e.raised, ?_⟩
      rw [← hm.negative, ← eq_infinityBits hc]
      exact e.delivers _ rfl
    case qnan =>
      have hc : classOf o.x = .qnan := (hm.cls_iff (by decide) (by decide)).2 hq
      have hden : o.denormal = false := by rw [hm.denormal, hq]; rfl
      rw [hv, if_neg (by rw [hc]; decide), hden] at e
      refine ⟨e.raised, ?_⟩
      rw [← hm.nan (by rw [Datum.isNaN, hq]; rfl)]
      exact e.delivers _ rfl
    case snan =>
      have hc : classOf o.x = .snan := (hm.cls_iff (by decide) (by decide)).2 hs
      rw [hv, if_pos hc, hm.nan (by rw [Datum.isNaN, hs]; rfl)] at e
      exact ⟨e.raised, e.invalid_response rfl⟩
  case decimal =>
    have e := ran_push (s := s) (i := .fbld p m) rfl
    have hr : pushResult (.fbld p m) s.npx (operandBytes s (.fbld p m)) = .ok (bcdToExt (operandBytes s (.fbld p m))) :=
      if_neg (ne_true_of_eq_false hf)
    rw [hr] at e
    obtain ⟨h1, h2, h3⟩ := bcdToExt_spec (operandBytes s (.fbld p m))
    exact ⟨_, _, exec_of_operable ho, e.delivers _ rfl, h1, h3, h2, e.c1 false rfl, e.raised⟩

end Sys2Proof.Machine
end

section
/-! PROOFS. Stores with conversion (spec/41_data_transfer.md R223 to R225): single and double, with overflow and underflow. -/

namespace Sys2Proof.Machine

/-! The fields of a packed number (R76). -/

section

variable (f : RealFormat) (s : Bool) {e m : Nat}

theorem pack_eq : f.pack s e m = (s.toNat * 2 ^ f.ew + e) * 2 ^ f.fw + m := by
  unfold RealFormat.pack
  rw [add_mul, mul_assoc, ← pow_add]
  cases s <;> simp

theorem pack_frac (hm : m < 2 ^ f.fw) : f.pack s e m % 2 ^ f.fw = m := by
  rw [pack_eq, Nat.mul_add_mod', Nat.mod_eq_of_lt hm]

theorem pack_div (hm : m < 2 ^ f.fw) : f.pack s e m / 2 ^ f.fw = s.toNat * 2 ^ f.ew + e := by
  rw [pack_eq, Nat.add_comm, Nat.add_mul_div_right _ _ (by positivity), Nat.div_eq_of_lt hm, Nat.zero_add]

theorem expField_pack (he : e < 2 ^ f.ew) (hm : m < 2 ^ f.fw) : expField f (f.pack s e m) = e := by
  rw [expField, pack_div f s hm, Nat.mul_add_mod', Nat.mod_eq_of_lt he]

theorem testBit_pack (he : e < 2 ^ f.ew) (hm : m < 2 ^ f.fw) : (f.pack s e m).testBit (f.ew + f.fw) = s := by
  rw [Nat.testBit_eq_decide_div_mod_eq, add_comm f.ew, pow_add, ← Nat.div_div_eq_div_mul, pack_div f s hm, Nat.add_comm,
    Nat.add_mul_div_right _ _ (by positivity), Nat.div_eq_of_lt he, Nat.zero_add]
  cases s <;> rfl

theorem pack_lt (he : e < 2 ^ f.ew) (hm : m < 2 ^ f.fw) : f.pack s e m < 2 ^ (f.ew + f.fw + 1) := by
  have h1 : s.toNat * 2 ^ f.ew + e + 1 ≤ 2 * 2 ^ f.ew := by cases s <;> simp <;> omega
  calc f.pack s e m < (s.toNat * 2 ^ f.ew + e + 1) * 2 ^ f.fw := by rw [pack_eq, add_mul _ 1, one_mul]; omega
    _ ≤ 2 * 2 ^ f.ew * 2 ^ f.fw := Nat.mul_le_mul_right _ h1
    _ = 2 ^ (f.ew + f.fw + 1) := by rw [pow_succ, pow_add]; ring

theorem formatVal_pack (he : e < 2 ^ f.ew) (hm : m < 2 ^ f.fw) :
    formatVal f (f.pack s e m) =
      sgn s * (((if e = 0 then m else 2 ^ f.fw + m : Nat) : ℚ) * 2 ^ ((max e 1 : Nat) - f.bias - f.fw : ℤ)) := by
  rw [formatVal_eq, expField_pack f s he hm, pack_frac f s hm, testBit_pack f s he hm]

theorem specialBits_eq (m : Nat) : specialBits f s m = f.pack s f.ones m := rfl

end

/-- What a store of a number leaves: its value, its sign, and no special pattern. -/
structure PacksTo (f : RealFormat) (s : Bool) (a : ℚ) (y : Nat) : Prop where
  lt : y < 2 ^ (f.ew + f.fw + 1)
  val : formatVal f y = sgn s * a
  sign : y.testBit (f.ew + f.fw) = s
  exp : expField f y ≠ f.ones

section

variable {f : RealFormat} (hf : FormatFacts f)
include hf

theorem FormatFacts.ones_lt : f.ones < 2 ^ f.ew := by
  have := hf.ones
  have := hf.pow_ew
  omega

/-- A number rounded to the format's precision, in its range. -/
theorem packsTo_normal (s : Bool) {q : Nat} {u : ℤ} (h1 : 2 ^ f.fw ≤ q) (h2 : q ≤ 2 ^ (f.fw + 1))
    (hlo : 1 - f.bias ≤ q.log2 + u) (hhi : q.log2 + u < f.bias + 1) :
    PacksTo f s (q * 2 ^ u) (f.pack s (q.log2 + u + f.bias).toNat ((if q.log2 ≤ f.fw then q else q >>> 1) % 2 ^ f.fw)) := by
  have hones := hf.ones
  have hpow := hf.pow_ew
  have hq0 : q ≠ 0 := (lt_of_lt_of_le (by positivity) h1).ne'
  have hlog : f.fw ≤ q.log2 := (Nat.le_log2 hq0).2 h1
  have hm : (if q.log2 ≤ f.fw then q else q >>> 1) % 2 ^ f.fw < 2 ^ f.fw := Nat.mod_lt _ (by positivity)
  have he : (q.log2 + u + f.bias).toNat < 2 ^ f.ew := by omega
  have hunits : (((2 ^ f.fw + (if q.log2 ≤ f.fw then q else q >>> 1) % 2 ^ f.fw : Nat) : ℚ)) * 2 ^ (q.log2 - f.fw : ℤ) = q := by
    by_cases hl : q.log2 ≤ f.fw
    · have hlt : q < 2 ^ (f.fw + 1) := lt_of_lt_of_le Nat.lt_log2_self (Nat.pow_le_pow_right (by norm_num) (by omega))
      rw [pow_succ] at hlt
      rw [if_pos hl, le_antisymm hl hlog, sub_self, zpow_zero, mul_one, Nat.mod_eq_sub_mod h1, Nat.mod_eq_of_lt (by omega),
        Nat.add_sub_cancel' h1]
    · have hq : q = 2 ^ (f.fw + 1) := by
        refine le_antisymm h2 ((Nat.pow_le_pow_right (by norm_num) ?_).trans (Nat.log2_self_le hq0))
        omega
      have hlog' : q.log2 = f.fw + 1 := by rw [hq, Nat.log2_two_pow]
      rw [if_neg hl, hlog', hq, pow_succ, Nat.shiftRight_eq_div_pow, pow_one, Nat.mul_div_cancel _ two_pos, Nat.mod_self]
      push_cast
      rw [add_zero, add_sub_cancel_left, zpow_one]
  refine ⟨pack_lt f s he hm, ?_, testBit_pack f s he hm, by rw [expField_pack f s he hm]; omega⟩
  rw [formatVal_pack f s he hm, if_neg (by omega), ← hunits, mul_assoc, ← zpow_add₀ two_ne_zero]
  congr 3
  omega

/-- A multiple of the smallest denormal, up to the smallest normal number. -/
theorem packsTo_denormal (s : Bool) {m : Nat} (h : m ≤ 2 ^ f.fw) :
    PacksTo f s (m * 2 ^ (1 - f.bias - f.fw : ℤ)) (f.pack s 0 m) := by
  have hones := hf.ones
  have hpow := hf.pow_ew
  rcases h.lt_or_eq with hlt | rfl
  · refine ⟨pack_lt f s (by omega) hlt, ?_, testBit_pack f s (by omega) hlt, by rw [expField_pack f s (by omega) hlt]; omega⟩
    rw [formatVal_pack f s (by omega) hlt, if_pos rfl]
    simp
  · have hcarry : f.pack s 0 (2 ^ f.fw) = f.pack s 1 0 := by rw [pack_eq, pack_eq]; ring
    have h0 : 0 < 2 ^ f.fw := by positivity
    have h1 : 1 < 2 ^ f.ew := by have := hf.one_le_bias; omega
    rw [hcarry]
    refine ⟨pack_lt f s h1 h0, ?_, testBit_pack f s h1 h0, by
      have := hf.one_le_bias
      rw [expField_pack f s h1 h0]; omega⟩
    rw [formatVal_pack f s h1 h0, if_neg one_ne_zero]
    simp

end

/-! `storeReal` of a number (R223). -/

section

variable {f : RealFormat} {x : Ext} {cw : ControlWord} {y : ℚ}

theorem magOf_exactly {p : Nat} (hx : val x ≠ 0) (h1 : 1 ≤ p) (h64 : p ≤ 64) : Exactly (magOf x) p |val x| :=
  ⟨magOf_rep x, fun h => hx ((val_eq_zero_iff x).2 h), h1, h64, fun h => by cases h⟩

/-- The rounding a statement speaks of, for a pattern. -/
theorem rounding_of_val (hx : val x ≠ 0) {p : Nat} (h1 : 1 ≤ p) (h64 : p ≤ 64) {rc : BitVec 2}
    (hy : IsRounding rc (val x) (ulpExponent p (val x)) y) :
    IsRounding rc (sgn (signOf x) * |val x|) ((magOf x).log2 - p + 1) y := by
  rwa [← val_eq_sgn, ← (magOf_rep x).log_eq (magOf_exactly hx h1 h64).m_ne]

/-- The three ends of a store of a nonzero number. -/
theorem storeReal_number (hf : finite x = true) (hx : val x ≠ 0) (cw : ControlWord) (f : RealFormat) :
    storeReal cw f x =
      let v := magOf x
      let u := v.log2 - (f.fw + 1 : Nat) + 1
      let r := roundTo cw.rc (signOf x) (f.fw + 1) v
      if (f.bias : Int) + 1 ≤ r.q.log2 + u then
        if cw.om then
          { signals := { oe := true, pe := true },
            val := some (if overflowsToInfinity cw.rc (signOf x) then f.pack (signOf x) f.ones 0
              else f.pack (signOf x) (f.ones - 1) (2 ^ f.fw - 1)),
            c1 := .set (overflowsToInfinity cw.rc (signOf x)) }
        else { signals := { oe := true }, val := none, c1 := .set r.up }
      else if isTiny (1 - f.bias) v u r then
        if cw.um then
          let t := roundAt cw.rc (signOf x) (1 - f.bias - (f.fw + 1 : Nat) + 1) v
          { signals := { ue := t.inexact, pe := t.inexact }, val := some (f.pack (signOf x) 0 t.q), c1 := .set t.up }
        else { signals := { ue := true }, val := none, c1 := .set r.up }
      else
        { signals := { pe := r.inexact },
          val := some (f.pack (signOf x) (r.q.log2 + u + f.bias).toNat ((if r.q.log2 ≤ f.fw then r.q else r.q >>> 1) % 2 ^ f.fw)),
          c1 := .set r.up } := by
  unfold storeReal
  rcases classOf_of_finite hf hx with hc | hc <;> simp only [hc]

variable (hff : FormatFacts f) (hf : finite x = true) (hx : val x ≠ 0)
  (hy : IsRounding cw.rc (val x) (ulpExponent (f.fw + 1) (val x)) y)
include hff hf hx hy

theorem storeReal_normal (hlo : (2 : ℚ) ^ (1 - f.bias : ℤ) ≤ |val x|) (hhi : |y| < (2 : ℚ) ^ (f.bias + 1 : ℤ)) :
    ∃ pe up v, storeReal cw f x = { signals := { pe := pe }, val := some v, c1 := .set up } ∧
      (pe = true ↔ y ≠ val x) ∧ (up = true ↔ |val x| < |y|) ∧ PacksTo f (signOf x) |y| v ∧ y = sgn (signOf x) * |y| := by
  have hfw := hff.fw_le
  have h : Exactly (magOf x) (f.fw + 1) |val x| := magOf_exactly hx (by omega) (by omega)
  have hr := rounding_of_val hx (by omega) (by omega) hy
  have hd := h.describes hr
  have hlow := (h.le_exponent_iff hr _).2 (h.le_abs_of_le hr hlo)
  have hhigh := (h.exponent_lt_iff hr _).2 hhi
  have hbits := h.bits cw.rc (signOf x)
  have ht : isTiny (1 - f.bias) (magOf x) ((magOf x).log2 - (f.fw + 1 : Nat) + 1)
      (roundTo cw.rc (signOf x) (f.fw + 1) (magOf x)) = false := by
    have := h.le_log2 hlo
    simp only [isTiny, Bool.or_eq_false_iff, Bool.and_eq_false_iff, decide_eq_false_iff_not]
    omega
  have hpe := hd.inexact
  have hup := hd.up
  have hp := packsTo_normal hff (signOf x) hbits.1 hbits.2 hlow hhigh
  rw [← hd.abs] at hp
  rw [← val_eq_sgn] at hpe hup
  rw [storeReal_number hf hx]
  dsimp only
  rw [if_neg (not_le.2 hhigh), ht, if_neg Bool.false_ne_true]
  exact ⟨_, _, _, rfl, hpe, hup, hp, by rw [hd.abs]; exact hd.eq⟩

theorem storeReal_overflow (hhi : (2 : ℚ) ^ (f.bias + 1 : ℤ) ≤ |y|) :
    (cw.om = true → storeReal cw f x =
      { signals := { oe := true, pe := true },
        val := some (if overflowsToInfinity cw.rc (signOf x) then f.pack (signOf x) f.ones 0
          else f.pack (signOf x) (f.ones - 1) (2 ^ f.fw - 1)),
        c1 := .set (overflowsToInfinity cw.rc (signOf x)) }) ∧
    (cw.om = false → ∃ up, storeReal cw f x = { signals := { oe := true }, val := none, c1 := .set up }) := by
  have hfw := hff.fw_le
  have h : Exactly (magOf x) (f.fw + 1) |val x| := magOf_exactly hx (by omega) (by omega)
  have hr := rounding_of_val hx (by omega) (by omega) hy
  have hhigh := (h.le_exponent_iff hr _).2 hhi
  rw [storeReal_number hf hx]
  dsimp only
  rw [if_pos hhigh]
  exact ⟨fun hom => if_pos hom, fun hom => ⟨_, if_neg (ne_true_of_eq_false hom)⟩⟩

theorem storeReal_underflow (hlo : |y| < (2 : ℚ) ^ (1 - f.bias : ℤ)) :
    (cw.um = true → ∃ lost up v, storeReal cw f x =
        { signals := { ue := lost, pe := lost }, val := some v, c1 := .set up } ∧
      (lost = true ↔ formatVal f v ≠ val x) ∧ (up = true ↔ |val x| < |formatVal f v|) ∧
      v < 2 ^ (f.ew + f.fw + 1) ∧ v.testBit (f.ew + f.fw) = signOf x ∧
      IsRounding cw.rc (val x) (1 - f.bias - f.fw) (formatVal f v)) ∧
    (cw.um = false → ∃ up, storeReal cw f x = { signals := { ue := true }, val := none, c1 := .set up }) := by
  have hfw := hff.fw_le
  have h : Exactly (magOf x) (f.fw + 1) |val x| := magOf_exactly hx (by omega) (by omega)
  have hr := rounding_of_val hx (by omega) (by omega) hy
  have hlow := (h.exponent_lt_iff hr _).2 hlo
  have halt : |val x| < (2 : ℚ) ^ (1 - f.bias : ℤ) := by
    by_contra hc
    exact absurd (h.le_abs_of_le hr (not_lt.1 hc)) (not_le.2 hlo)
  have ht : isTiny (1 - f.bias) (magOf x) ((magOf x).log2 - (f.fw + 1 : Nat) + 1)
      (roundTo cw.rc (signOf x) (f.fw + 1) (magOf x)) = true := by
    simp only [isTiny, Bool.or_eq_true, decide_eq_true_eq]
    exact .inl hlow
  have hu : (1 - f.bias - (f.fw + 1 : Nat) + 1 : ℤ) = 1 - f.bias - f.fw := by push_cast; ring
  have hrt : RoundsTo cw.rc (signOf x) (1 - f.bias - f.fw) |val x|
      (roundAt cw.rc (signOf x) (1 - f.bias - (f.fw + 1 : Nat) + 1) (magOf x)) := by
    rw [hu]
    exact roundAt_roundsTo (magOf_rep x) cw.rc (signOf x) fun h => by cases h
  rw [storeReal_number hf hx]
  dsimp only
  rw [if_neg (by omega), ht, if_pos rfl]
  generalize roundAt cw.rc (signOf x) (1 - f.bias - (f.fw + 1 : Nat) + 1) (magOf x) = t at hrt
  refine ⟨fun hum => ⟨_, _, _, if_pos hum, ?_⟩, fun hum => ⟨_, if_neg (ne_true_of_eq_false hum)⟩⟩
  have hd := hrt.describes (abs_nonneg _) hrt.isRounding
  have hq : t.q ≤ 2 ^ f.fw := by
    refine hrt.le _ (halt.trans_le (le_of_eq ?_))
    push_cast
    rw [← zpow_natCast, ← zpow_add₀ two_ne_zero]
    congr 1
    omega
  have hp := packsTo_denormal hff (signOf x) hq
  rw [hp.val, val_eq_sgn x]
  exact ⟨hd.inexact, hd.up, hp.lt, hp.sign, hrt.isRounding⟩

end

/-! What a store to single or double leaves in memory. -/

section

variable {i : Instr} {f : RealFormat} {pops : Nat} (h : realStore i = some (f, pops)) {s : State}
include h

theorem storeForm_of_realStore : storeForm i = some (specialBits f true (2 ^ (f.fw - 1)), pops) := by
  cases i <;> cases h <;> rfl

theorem isFormat_of_realStore : IsFormat f := by
  cases i <;> cases h <;> simp [IsFormat]

theorem operandOf_of_realStore (s : State) : ∃ o, operandOf s i = some o ∧ 8 * o.bytes = f.ew + f.fw + 1 := by
  cases i <;> cases h <;> exact ⟨_, rfl, rfl⟩

theorem storeResult_of_realStore (he : s.npx.empty 0 = false) (indef : Nat) :
    storeResult i indef s.npx = storeReal s.npx.cw f (s.npx.st 0) := by
  rw [storeResult, he, if_neg Bool.false_ne_true]
  cases i <;> cases h <;> rfl

theorem ran_realStore (he : s.npx.empty 0 = false) :
    Ends s.npx (s.ran i).npx (fun _ => Popped pops s.npx (s.ran i).npx) (storeReal s.npx.cw f (s.npx.st 0)) := by
  have e := ran_store (s := s) (storeForm_of_realStore h)
  rwa [storeResult_of_realStore h he] at e

theorem storedBytes_of_realStore (hm : s.mem.wf = true) (he : s.npx.empty 0 = false) {v : Nat}
    (hv : (storeReal s.npx.cw f (s.npx.st 0)).val = some v) (hlt : v < 2 ^ (f.ew + f.fw + 1)) :
    storedBytes s (s.ran i) i = v := by
  obtain ⟨o, ho, hb⟩ := operandOf_of_realStore h s
  exact storedBytes_of_storeForm (storeForm_of_realStore h) hm ho ((congrArg _ (storeResult_of_realStore h he _)).trans hv)
    (hb ▸ hlt)

theorem mem_of_realStore (he : s.npx.empty 0 = false) (hv : (storeReal s.npx.cw f (s.npx.st 0)).val = none) :
    (s.ran i).mem = s.mem :=
  mem_ran_of_storeForm (storeForm_of_realStore h) ((congrArg _ (storeResult_of_realStore h he _)).trans hv)

end

/-! Zeros, infinities, NaNs and unsupported patterns (R223). -/

/-- The fraction a store keeps of a NaN. -/
theorem nanFraction (f : RealFormat) (hf : f.fw ≤ 52) (x : Ext) :
    sig x % 2 ^ 63 / 2 ^ (63 - f.fw) = (x.extractLsb' (63 - f.fw) f.fw).toNat := by
  have h63 : 2 ^ 63 = 2 ^ (63 - f.fw) * 2 ^ f.fw := by rw [← pow_add]; congr 1; omega
  have h64 : x.toNat % 2 ^ 64 % 2 ^ 63 = x.toNat % 2 ^ 63 := Nat.mod_mod_of_dvd _ ⟨2, by norm_num⟩
  rw [sig_eq, h64, BitVec.extractLsb'_toNat, Nat.shiftRight_eq_div_pow, h63, Nat.mod_mul_right_div_self]

theorem storeReal_quiet {f : RealFormat} (hf : f.fw ≤ 52) (cw : ControlWord) {x : Ext}
    (h : classOf x = .zero ∨ classOf x = .infinity ∨ classOf x = .qnan) :
    storeReal cw f x = .ok (if classOf x = .zero then (if signOf x then 2 ^ (f.ew + f.fw) else 0)
      else specialBits f (signOf x) (if classOf x = .infinity then 0 else (x.extractLsb' (63 - f.fw) f.fw).toNat)) := by
  unfold storeReal
  rcases h with h | h | h
  · simp [h, RealFormat.pack]
  · simp [h, specialBits_eq]
  · simp only [h, reduceCtorEq, if_false, specialBits_eq, ← nanFraction f hf]

theorem storeReal_invalid {f : RealFormat} (hf : f.fw ≤ 52) (cw : ControlWord) {x : Ext}
    (h : classOf x = .snan ∨ classOf x = .unsupported) :
    storeReal cw f x = .invalid cw (if classOf x = .snan
      then specialBits f (signOf x) ((quiet x).extractLsb' (63 - f.fw) f.fw).toNat
      else specialBits f true (2 ^ (f.fw - 1))) := by
  unfold storeReal
  rcases h with h | h
  · simp only [h, if_true, specialBits_eq, ← nanFraction f hf]
  · simp [h, specialBits_eq]

theorem FormatFacts.specialBits_lt {f : RealFormat} (hf : FormatFacts f) (s : Bool) {m : Nat} (hm : m < 2 ^ f.fw) :
    specialBits f s m < 2 ^ (f.ew + f.fw + 1) := by
  rw [specialBits_eq]
  exact pack_lt f s hf.ones_lt hm

theorem FormatFacts.indefinite_lt {f : RealFormat} (hf : FormatFacts f) : 2 ^ (f.fw - 1) < 2 ^ f.fw :=
  Nat.pow_lt_pow_right (by norm_num) (by have := hf.one_le_fw; omega)

/-- Settles O27: a number by `storeReal_normal`, the other patterns by their class. -/
theorem realStoresRoundCorrectly : Obligations.RealStoresRoundCorrectly := by
  unfold Obligations.RealStoresRoundCorrectly
  intro i s f pops h ho hm he x neg
  have hff := (isFormat_of_realStore h).facts
  have e := ran_realStore h he
  refine ⟨fun y hf hlo hy hhi => ?number, fun hc => ?quiet, fun hc => ?invalid⟩
  case number =>
    have hx : val x ≠ 0 := fun h0 => by
      rw [h0, abs_zero] at hlo
      exact absurd hlo (not_le.2 (zpow_pos two_pos _))
    obtain ⟨pe, up, v, hr, hpe, hup, hp, hys⟩ := storeReal_normal hff hf hx hy hlo hhi
    have hst := storedBytes_of_realStore h hm he (congrArg Result.val hr) hp.lt
    rw [hr] at e
    refine ⟨_, exec_of_operable ho, ?_, ?_, ?_, ?_, ?_, e.delivers v rfl⟩
    · rw [hst, hp.val, ← hys]
    · rw [hst, hp.sign]
    · rw [hst]; exact hp.exp
    · have := e.raised
      rwa [eq_decide_of_iff hpe] at this
    · rw [e.c1 up rfl, eq_decide_of_iff hup]
  case quiet =>
    have hr := storeReal_quiet hff.fw_le s.npx.cw hc
    refine ⟨_, exec_of_operable ho, storedBytes_of_realStore h hm he (congrArg Result.val hr) ?_, ?_⟩
    · have hfrac : (if classOf x = .infinity then 0 else (x.extractLsb' (63 - f.fw) f.fw).toNat) < 2 ^ f.fw := by
        split
        · positivity
        · exact (x.extractLsb' (63 - f.fw) f.fw).isLt
      have hz := pack_lt f neg (e := 0) (m := 0) (by positivity) (by positivity)
      simp only [RealFormat.pack, Nat.zero_mul, Nat.add_zero] at hz
      split
      · exact hz
      · exact hff.specialBits_lt neg hfrac
    · rw [hr] at e
      exact ⟨e.raised, e.c1 false rfl, e.delivers _ rfl⟩
  case invalid =>
    have hr := storeReal_invalid hff.fw_le s.npx.cw hc
    have e' := e
    rw [hr] at e'
    refine ⟨_, exec_of_operable ho, e'.raised, fun him => ⟨e'.c1 false rfl, e'.delivers _ (if_pos him), ?_⟩,
      fun him => ⟨mem_of_realStore h he ?_, popped_zero (e'.aborts (if_neg (ne_true_of_eq_false him)))⟩⟩
    · refine storedBytes_of_realStore h hm he ((congrArg Result.val hr).trans (if_pos him)) ?_
      split
      · exact hff.specialBits_lt neg ((quiet x).extractLsb' (63 - f.fw) f.fw).isLt
      · exact hff.specialBits_lt true hff.indefinite_lt
    · exact (congrArg Result.val hr).trans (if_neg (ne_true_of_eq_false him))

/-- Settles O28: `storeReal_overflow` and `storeReal_underflow`. -/
theorem realStoreOverflowAndUnderflow : Obligations.RealStoreOverflowAndUnderflow := by
  unfold Obligations.RealStoreOverflowAndUnderflow
  intro i s f pops y h ho hm he hf v neg inf hx hy
  have hff := (isFormat_of_realStore h).facts
  have e := ran_realStore h he
  refine ⟨fun hhi => ?overflow, fun hum hlo => ?masked, fun hum hlo => ?unmasked⟩
  case overflow =>
    obtain ⟨hmasked, hunmasked⟩ := storeReal_overflow hff hf hx hy hhi
    have hi : overflowsToInfinity s.npx.cw.rc neg = true ↔ inf := overflowsToInfinity_iff _ _
    refine ⟨_, exec_of_operable ho, fun hom => ?_, fun hom => ?_⟩
    · have hr := hmasked hom
      have e' := e
      rw [hr] at e'
      have hones := hff.ones
      have hfrac : 2 ^ f.fw - 1 < 2 ^ f.fw := Nat.sub_lt (by positivity) one_pos
      refine ⟨e'.raised, e'.delivers _ rfl, fun hinf => ?_, fun hinf => ?_⟩
      · have ht := hi.2 hinf
        refine ⟨storedBytes_of_realStore h hm he ((congrArg Result.val hr).trans ?_) (hff.specialBits_lt neg (by positivity)),
          (e'.c1 _ rfl).trans ht⟩
        exact congrArg some (if_pos ht)
      · have hn : overflowsToInfinity s.npx.cw.rc neg = false := Bool.eq_false_iff.2 fun ht => hinf (hi.1 ht)
        have hlargest : specialBits f neg 0 - 1 = f.pack neg (f.ones - 1) (2 ^ f.fw - 1) := by
          have hpos : 0 < 2 ^ f.fw := by positivity
          have h1 : (neg.toNat * 2 ^ f.ew + f.ones) = (neg.toNat * 2 ^ f.ew + (f.ones - 1)) + 1 := by omega
          rw [specialBits_eq, pack_eq, pack_eq, h1, add_mul _ 1]
          omega
        refine ⟨?_, (e'.c1 _ rfl).trans hn⟩
        rw [hlargest]
        refine storedBytes_of_realStore h hm he ((congrArg Result.val hr).trans ?_)
          (pack_lt f neg (by have := hff.ones_lt; omega) hfrac)
        exact congrArg some (if_neg (ne_true_of_eq_false hn))
    · obtain ⟨up, hr⟩ := hunmasked hom
      have hmem := mem_of_realStore h he (congrArg Result.val hr)
      rw [hr] at e
      exact ⟨e.raised, hmem, popped_zero (e.aborts rfl), e.es_b (Signals.unmasked_of_oe rfl hom)⟩
  case masked =>
    obtain ⟨lost, up, w, hr, hlost, hup, hlt, hsign, hround⟩ := (storeReal_underflow hff hf hx hy hlo).1 hum
    have hst := storedBytes_of_realStore h hm he (congrArg Result.val hr) hlt
    rw [hr] at e
    refine ⟨_, exec_of_operable ho, ?_⟩
    rw [hst]
    refine ⟨hsign, hround, ?_, ?_, e.delivers _ rfl⟩
    · have := e.raised
      rwa [eq_decide_of_iff hlost] at this
    · rw [e.c1 up rfl, eq_decide_of_iff hup]
  case unmasked =>
    obtain ⟨up, hr⟩ := (storeReal_underflow hff hf hx hy hlo).2 hum
    have hmem := mem_of_realStore h he (congrArg Result.val hr)
    rw [hr] at e
    exact ⟨_, exec_of_operable ho, e.raised, hmem, popped_zero (e.aborts rfl), e.es_b (Signals.unmasked_of_ue rfl hum)⟩

end Sys2Proof.Machine
end

section
/-! PROOFS. FIST, FISTP and FBSTP (spec/41_data_transfer.md R216 to R221, R224, R225). -/

namespace Sys2Proof.Machine

/-! `round_int` (R224). -/

/-- The integer of a sign and a magnitude. -/
def signedInt (neg : Bool) (q : Nat) : ℤ := if neg then -q else q

theorem signedInt_cast {K : Type} [Field K] (neg : Bool) (q : Nat) : ((signedInt neg q : ℤ) : K) = sgn neg * (q : K) := by
  cases neg <;> simp [signedInt]

/-- Zero is rounded to itself. -/
theorem isRounding_zero {K : Type} [Field K] [LinearOrder K] [IsStrictOrderedRing K] (rc : BitVec 2) (u : ℤ) :
    IsRounding rc (0 : K) u 0 := by
  have hp : (0 : K) < 2 ^ u := zpow_pos two_pos _
  refine ⟨⟨0, by simp⟩, ?_⟩
  have hrc : rc.toNat < 4 := rc.isLt
  interval_cases rc.toNat
  · exact ⟨by simpa using hp.le, fun _ => ⟨0, by simp⟩⟩
  all_goals simpa using hp

theorem roundInt_roundsTo (rc : BitVec 2) (x : Ext) : RoundsTo rc (signOf x) 0 |val x| (roundInt rc x) :=
  roundAt_roundsTo (magOf_rep x) rc (signOf x) fun h => by cases h

/-- What is left of ST(0) rounded to an integer. -/
theorem roundInt_spec {rc : BitVec 2} {x : Ext} {z : ℤ} (hz : IsRounding rc (val x) 0 (z : ℚ)) :
    z = signedInt (signOf x) (roundInt rc x).q ∧ ((roundInt rc x).inexact = true ↔ (z : ℚ) ≠ val x) ∧
      ((roundInt rc x).up = true ↔ |val x| < |(z : ℚ)|) := by
  rw [val_eq_sgn] at hz
  obtain ⟨h1, -, h3, h4⟩ := (roundInt_roundsTo rc x).describes (abs_nonneg _) hz
  rw [zpow_zero, mul_one, ← signedInt_cast] at h1
  rw [← val_eq_sgn] at h3 h4
  exact ⟨by exact_mod_cast h1, h3, h4⟩

/-! What a store of an integer does (R224, R225), whatever its format. -/

/-- A conversion that stores the rounded integer where it fits, and the indefinite otherwise. -/
structure StoresInteger (cw : ControlWord) (x : Ext) (fits : ℤ → Prop) (bits : ℤ → Nat) (indef : Nat)
    (conv : Result Nat) : Prop where
  special : finite x = false → conv = .invalid cw indef
  zero : classOf x = .zero → fits 0 ∧ conv = .ok (bits 0)
  inside : finite x = true → val x ≠ 0 → fits (signedInt (signOf x) (roundInt cw.rc x).q) →
    conv = { signals := { pe := (roundInt cw.rc x).inexact }, val := some (bits (signedInt (signOf x) (roundInt cw.rc x).q)),
             c1 := .set (roundInt cw.rc x).up }
  outside : finite x = true → val x ≠ 0 → ¬fits (signedInt (signOf x) (roundInt cw.rc x).q) → conv = .invalid cw indef

namespace StoresInteger

variable {cw : ControlWord} {x : Ext} {fits : ℤ → Prop} {bits : ℤ → Nat} {indef : Nat} {conv : Result Nat}
  (h : StoresInteger cw x fits bits indef conv)
include h

/-- Stored: the rounded integer, with PE and C1. -/
theorem stored {z : ℤ} (hf : finite x = true) (hz : IsRounding cw.rc (val x) 0 (z : ℚ)) (hfit : fits z) :
    conv = { signals := { pe := decide ((z : ℚ) ≠ val x) }, val := some (bits z),
             c1 := .set (decide (|val x| < |(z : ℚ)|)) } := by
  by_cases h0 : val x = 0
  · have hz0 : (z : ℚ) = 0 := hz.unique (by rw [h0]; exact isRounding_zero cw.rc 0)
    rw [(h.zero ((classOf_zero_iff_val hf).2 h0)).2, hz0, h0, Int.cast_eq_zero.1 hz0]
    simp [Result.ok]
  · obtain ⟨h1, h2, h3⟩ := roundInt_spec hz
    rw [h1] at hfit
    rw [h.inside hf h0 hfit, ← h1, eq_decide_of_iff h2, eq_decide_of_iff h3]

/-- Not stored: no number, or a number out of range. -/
theorem invalid (hc : finite x = false ∨ ∃ z : ℤ, IsRounding cw.rc (val x) 0 (z : ℚ) ∧ ¬fits z) :
    conv = .invalid cw indef := by
  cases hf : finite x with
  | false => exact h.special hf
  | true =>
    obtain ⟨z, hz, hout⟩ := hc.resolve_left (ne_false_of_eq_true hf)
    have h0 : val x ≠ 0 := by
      intro h0
      have hz0 : (z : ℚ) = 0 := hz.unique (by rw [h0]; exact isRounding_zero cw.rc 0)
      rw [Int.cast_eq_zero.1 hz0] at hout
      exact hout (h.zero ((classOf_zero_iff_val hf).2 h0)).1
    exact h.outside hf h0 ((roundInt_spec hz).1 ▸ hout)

end StoresInteger

/-! Two's complement. -/

theorem fits_iff {n : Nat} {neg : Bool} {q : Nat} :
    (-2 ^ (n - 1) ≤ signedInt neg q ∧ signedInt neg q < 2 ^ (n - 1)) ↔
      ¬(if neg then 2 ^ (n - 1) < q else 2 ^ (n - 1) - 1 < q) := by
  have hp : (0 : ℤ) < 2 ^ (n - 1) := by positivity
  have hc : ((2 ^ (n - 1) : Nat) : ℤ) = 2 ^ (n - 1) := by push_cast; rfl
  generalize 2 ^ (n - 1) = m at hc
  rw [← hc] at hp ⊢
  cases neg <;> simp [signedInt] <;> omega

theorem toNat_ofInt_signedInt {n : Nat} {neg : Bool} {q : Nat} (hq : q < 2 ^ n) :
    (BitVec.ofInt n (signedInt neg q)).toNat = if neg && q != 0 then 2 ^ n - q else q := by
  have hc : ((2 : ℤ) ^ n) = ((2 ^ n : Nat) : ℤ) := by push_cast; rfl
  rw [BitVec.toNat_ofInt]
  generalize 2 ^ n = m at hq hc
  cases neg with
  | false =>
    rw [signedInt, if_neg Bool.false_ne_true, Bool.false_and, if_neg Bool.false_ne_true, Int.emod_eq_of_lt (by omega) (by omega)]
    rfl
  | true =>
    rw [signedInt, if_pos rfl, Bool.true_and]
    by_cases h0 : q = 0
    · simp [h0]
    · rw [if_pos (by simpa using h0), ← Int.add_emod_right, Int.emod_eq_of_lt (by omega) (by omega)]
      omega

theorem storeInt_spec (cw : ControlWord) {n : Nat} (h1 : 1 ≤ n) (x : Ext) {fits : ℤ → Prop} {bits : ℤ → Nat}
    (hfits : ∀ z, fits z ↔ -2 ^ (n - 1) ≤ z ∧ z < 2 ^ (n - 1)) (hbits : ∀ z, bits z = (BitVec.ofInt n z).toNat) :
    StoresInteger cw x fits bits (2 ^ (n - 1)) (storeInt cw n x) := by
  have hnumber (hf : finite x = true) (hx : val x ≠ 0) :
      storeInt cw n x = if (if signOf x then 2 ^ (n - 1) < (roundInt cw.rc x).q else 2 ^ (n - 1) - 1 < (roundInt cw.rc x).q)
        then .invalid cw (2 ^ (n - 1))
        else { signals := { pe := (roundInt cw.rc x).inexact },
               val := some (if signOf x && (roundInt cw.rc x).q != 0 then 2 ^ n - (roundInt cw.rc x).q else (roundInt cw.rc x).q),
               c1 := .set (roundInt cw.rc x).up } := by
    unfold storeInt
    rcases classOf_of_finite hf hx with hc | hc <;> simp only [hc] <;> rfl
  refine ⟨fun hf => ?_, fun hz => ⟨?_, ?_⟩, fun hf hx hfit => ?_, fun hf hx hout => ?_⟩
  · unfold storeInt
    unfold finite at hf
    cases hc : classOf x <;> simp_all [intIndef]
  · rw [hfits]
    have hp : (0 : ℤ) < 2 ^ (n - 1) := by positivity
    omega
  · unfold storeInt
    rw [hz, hbits]
    simp
  · rw [hfits, fits_iff] at hfit
    have h2 : 2 ^ n = 2 * 2 ^ (n - 1) := by rw [← pow_succ']; congr 1; omega
    have hq : (roundInt cw.rc x).q < 2 ^ n := by
      have : 0 < 2 ^ (n - 1) := by positivity
      revert hfit
      split <;> omega
    rw [hnumber hf hx, if_neg hfit, hbits, toNat_ofInt_signedInt hq]
  · rw [hfits, fits_iff, not_not] at hout
    rw [hnumber hf hx, if_pos hout]

/-! Packed decimals (R225). -/

theorem bcdDigits_eq (k n : Nat) : bcdDigits k n = ((List.range k).map fun j => n / 10 ^ j % 10 * 16 ^ j).sum := by
  induction k generalizing n with
  | zero => rfl
  | succ k ih =>
    rw [bcdDigits, ih, List.range_succ_eq_map, List.map_cons, List.sum_cons, List.map_map, ← List.sum_map_mul_left]
    congr 1
    · simp
    · congr 1
      refine List.map_congr_left fun j _ => ?_
      simp only [Function.comp_apply, Nat.succ_eq_add_one]
      rw [Nat.div_div_eq_div_mul, ← pow_succ', pow_succ 16]
      ring

theorem bcdDigits_lt (k n : Nat) : bcdDigits k n < 16 ^ k := by
  induction k generalizing n with
  | zero => exact Nat.one_pos
  | succ k ih =>
    have := ih (n / 10)
    have : n % 10 < 10 := Nat.mod_lt _ (by norm_num)
    rw [bcdDigits, pow_succ]
    omega

theorem natAbs_signedInt (neg : Bool) (q : Nat) : (signedInt neg q).natAbs = q := by cases neg <;> simp [signedInt]

/-- The sign and the eighteen digits of an integer. -/
theorem packBcd_eq (s : Bool) (q : Nat) :
    packBcd s q = (if s then 2 ^ 79 else 0) + ((List.range 18).map fun k => q / 10 ^ k % 10 * 16 ^ k).sum := by
  rw [packBcd, bcdDigits_eq, show 0x80 * 2 ^ 72 = 2 ^ 79 by norm_num]

theorem packBcd_lt (s : Bool) (q : Nat) : packBcd s q < 2 ^ 80 := by
  have := bcdDigits_lt 18 q
  unfold packBcd
  split <;> omega

theorem storeBcd_spec (cw : ControlWord) (x : Ext) {fits : ℤ → Prop} {bits : ℤ → Nat}
    (hfits : ∀ z, fits z ↔ |z| < 10 ^ 18) (hbits : ∀ z : ℤ, bits z = packBcd (signOf x) z.natAbs) :
    StoresInteger cw x fits bits 0xFFFFC000000000000000 (storeBcd cw x) := by
  have hnumber (hf : finite x = true) (hx : val x ≠ 0) :
      storeBcd cw x = if 10 ^ 18 ≤ (roundInt cw.rc x).q then .invalid cw 0xFFFFC000000000000000
        else { signals := { pe := (roundInt cw.rc x).inexact }, val := some (packBcd (signOf x) (roundInt cw.rc x).q),
               c1 := .set (roundInt cw.rc x).up } := by
    unfold storeBcd
    rcases classOf_of_finite hf hx with hc | hc <;> simp only [hc] <;> rfl
  have hfit' : fits (signedInt (signOf x) (roundInt cw.rc x).q) ↔ ¬10 ^ 18 ≤ (roundInt cw.rc x).q := by
    rw [hfits, Int.abs_eq_natAbs, natAbs_signedInt]
    omega
  refine ⟨fun hf => ?_, fun hz => ⟨?_, ?_⟩, fun hf hx hfit => ?_, fun hf hx hout => ?_⟩
  · unfold storeBcd
    unfold finite at hf
    cases hc : classOf x <;> simp_all [bcdIndef]
  · rw [hfits]
    norm_num
  · unfold storeBcd
    rw [hz, hbits]
    rfl
  · rw [hnumber hf hx, if_neg (hfit'.1 hfit), hbits, natAbs_signedInt]
  · rw [hnumber hf hx, if_pos (not_not.1 (mt hfit'.2 hout))]

/-! Every form. -/

/-- The conversion of a store of an integer, and the room for its result. -/
theorem converted_of_intStore {i : Instr} {n pops : Nat} (h : intStore i = some (n, pops)) (s : State) :
    1 ≤ n ∧ storeForm i = some (2 ^ (n - 1), pops) ∧ (∃ o, operandOf s i = some o ∧ 8 * o.bytes = n) ∧
      ∀ cw x, converted i cw x = storeInt cw n x := by
  cases i <;> cases h <;> exact ⟨by norm_num, rfl, ⟨_, rfl, rfl⟩, fun _ _ => rfl⟩

/-- Settles O29: both formats through `StoresInteger`. -/
theorem integerAndDecimalStoresRoundCorrectly : Obligations.IntegerAndDecimalStoresRoundCorrectly := by
  unfold Obligations.IntegerAndDecimalStoresRoundCorrectly
  intro i s indef pops fits bits h hform ho hm he
  have hconv : storeResult i indef s.npx = converted i s.npx.cw (s.npx.st 0) := by
    rw [storeResult, he, if_neg Bool.false_ne_true]
  obtain ⟨o, hoo, hlt, hspec⟩ : ∃ o, operandOf s i = some o ∧ (∀ z, bits z < 2 ^ (8 * o.bytes)) ∧
      StoresInteger s.npx.cw (s.npx.st 0) fits bits indef (converted i s.npx.cw (s.npx.st 0)) := by
    rcases hform with ⟨n, hn, hfits, hbits⟩ | ⟨p, m, rfl, hfits, hbits⟩
    · obtain ⟨h1, hsf, ⟨o, hoo, hb⟩, hc⟩ := converted_of_intStore hn s
      cases h.symm.trans hsf
      refine ⟨o, hoo, fun z => ?_, ?_⟩
      · rw [hbits, hb]
        exact (BitVec.ofInt n z).isLt
      · rw [hc]
        exact storeInt_spec s.npx.cw h1 (s.npx.st 0) hfits hbits
    · cases h
      refine ⟨s.cpu.operand p m 10, rfl, fun z => ?_, ?_⟩
      · rw [hbits, ← packBcd_eq]
        exact packBcd_lt _ _
      · exact storeBcd_spec s.npx.cw (s.npx.st 0) hfits fun z => (hbits z).trans (packBcd_eq _ _).symm
  obtain ⟨o', hoo', -, hind⟩ := operandOf_of_storeForm h s
  cases hoo.symm.trans hoo'
  have e := ran_store (s := s) h
  refine ⟨fun z hf hz hfit => ?stored, fun hc => ?invalid⟩
  case stored =>
    have hr := hconv.trans (hspec.stored hf hz hfit)
    have hst := storedBytes_of_storeForm h hm hoo (congrArg Result.val hr) (hlt z)
    rw [hr] at e
    exact ⟨_, exec_of_operable ho, hst, e.raised, e.c1 _ rfl, e.delivers _ rfl⟩
  case invalid =>
    have hr := hconv.trans (hspec.invalid hc)
    have e' := e
    rw [hr] at e'
    refine ⟨_, exec_of_operable ho, e'.raised, e'.c1 false rfl, fun him => ⟨?_, e'.delivers _ (if_pos him)⟩, fun him => ⟨?_, ?_⟩⟩
    · exact storedBytes_of_storeForm h hm hoo ((congrArg Result.val hr).trans (if_pos him)) hind
    · exact mem_ran_of_storeForm h ((congrArg Result.val hr).trans (if_neg (ne_true_of_eq_false him)))
    · exact popped_zero (e'.aborts (if_neg (ne_true_of_eq_false him)))

end Sys2Proof.Machine
end

section
/-! PROOFS. NaN and unsupported operands of the instructions that compute one result (spec/40_numerics_common.md R146, R157 to
R159): the class tests that come before everything but the stack test. -/

namespace Sys2Proof.Machine

/-! NaNs. -/

/-- A quiet NaN is its own quiet form. -/
theorem quiet_of_qnan {x : Ext} (h : classOf x = .qnan) : quiet x = x := by
  have hbit : x.getLsbD 62 = true := by
    unfold classOf at h
    split_ifs at h
    assumption
  refine BitVec.eq_of_getLsbD_eq fun i _ => ?_
  rw [quiet, BitVec.getLsbD_or]
  by_cases hi : i = 62
  · rw [hi, hbit, Bool.true_or]
  · have h1 : ((1 <<< 62 : Nat) : Ext) = BitVec.twoPow 80 62 := by decide
    rw [h1, BitVec.getLsbD_twoPow, decide_eq_false (Ne.symm hi), Bool.and_false, Bool.or_false]

theorem isNaN_iff (x : Ext) : isNaN x = true ↔ classOf x = .qnan ∨ classOf x = .snan := by simp [isNaN]

/-- R158 takes one of the NaN operands; which of two is NAN_RULE's. -/
theorem nanRule_cases {a b : Ext} (h : isNaN a = true ∨ isNaN b = true) :
    (isNaN a = true ∧ nanRule a b = quiet a) ∨ (isNaN b = true ∧ nanRule a b = quiet b) := by
  unfold nanRule
  cases ha : isNaN a with
  | false =>
    cases hb : isNaN b with
    | false => simp [ha, hb] at h
    | true => simp
  | true =>
    cases hb : isNaN b with
    | false => simp
    | true =>
      simp only [Bool.not_true, Bool.false_eq_true, if_false]
      split_ifs <;> simp

/-! The class tests. -/

/-- r is what the class tests of the operands xs decide: an unsupported operand is invalid, else a signaling NaN, else a
quiet NaN is the result. -/
structure ClassTested (cw : ControlWord) (xs : List Ext) (r : Result Ext) : Prop where
  unsupported : (∃ x ∈ xs, classOf x = .unsupported) → r.signals = { ie := true } ∧ r.sf = false ∧
    r.val = (if cw.im then some qnanIndef else none) ∧ (cw.im = true → r.c1 = .set false)
  nan : (∀ x ∈ xs, classOf x ≠ .unsupported) → (∃ x ∈ xs, isNaN x = true) → ∃ x ∈ xs, isNaN x = true ∧
    ((∃ y ∈ xs, classOf y = .snan) → r = .invalid cw (quiet x)) ∧ (¬(∃ y ∈ xs, classOf y = .snan) → r = .ok (quiet x))

theorem Result.twoOperands_tested (cw : ControlWord) (a b : Ext) (k : Result Ext) :
    ClassTested cw [a, b] (Result.twoOperands cw a b k) := by
  constructor
  · intro h
    simp only [List.mem_cons, List.not_mem_nil, or_false, exists_eq_or_imp, exists_eq_left] at h
    rw [Result.twoOperands, if_pos h]
    exact ⟨rfl, rfl, rfl, fun _ => rfl⟩
  · intro hu hn
    simp only [List.mem_cons, List.not_mem_nil, or_false, exists_eq_or_imp, exists_eq_left, forall_eq_or_imp, forall_eq]
      at hu hn ⊢
    have hk (v : Ext) (hv : nanRule a b = v) :
        ((classOf a = .snan ∨ classOf b = .snan) → Result.twoOperands cw a b k = .invalid cw v) ∧
          (¬(classOf a = .snan ∨ classOf b = .snan) → Result.twoOperands cw a b k = .ok v) := by
      rw [Result.twoOperands, if_neg (not_or.2 hu), hv]
      refine ⟨fun hs => if_pos hs, fun hs => ?_⟩
      rw [if_neg hs, if_pos]
      rw [isNaN_iff, isNaN_iff] at hn
      tauto
    rcases nanRule_cases hn with ⟨ha, hr⟩ | ⟨hb, hr⟩
    · exact .inl ⟨ha, hk _ hr⟩
    · exact .inr ⟨hb, hk _ hr⟩

theorem Result.oneOperand_tested (cw : ControlWord) (a : Ext) (k : Result Ext) :
    ClassTested cw [a] (Result.oneOperand cw a k) := by
  constructor
  · intro h
    simp only [List.mem_cons, List.not_mem_nil, or_false, exists_eq_left] at h
    rw [Result.oneOperand, h]
    exact ⟨rfl, rfl, rfl, fun _ => rfl⟩
  · intro hu hn
    simp only [List.mem_cons, List.not_mem_nil, or_false, exists_eq_left, forall_eq] at hu hn ⊢
    refine ⟨hn, fun hs => by rw [Result.oneOperand, hs], fun hs => ?_⟩
    have hq : classOf a = .qnan := ((isNaN_iff a).1 hn).resolve_right hs
    rw [Result.oneOperand, hq, quiet_of_qnan hq]

@[simp] theorem Result.keepC1OnAbort_signals {α : Type} (r : Result α) : r.keepC1OnAbort.signals = r.signals := by
  unfold Result.keepC1OnAbort
  split <;> rfl

@[simp] theorem Result.keepC1OnAbort_sf {α : Type} (r : Result α) : r.keepC1OnAbort.sf = r.sf := by
  unfold Result.keepC1OnAbort
  split <;> rfl

@[simp] theorem Result.keepC1OnAbort_val {α : Type} (r : Result α) : r.keepC1OnAbort.val = r.val := by
  unfold Result.keepC1OnAbort
  split <;> rfl

theorem Result.keepC1OnAbort_c1 {α : Type} (r : Result α) :
    r.keepC1OnAbort.c1 = if r.val.isNone then .keep else r.c1 := by
  unfold Result.keepC1OnAbort
  split <;> rfl

/-- FPREM and FPREM1 test the classes in the same order. -/
theorem premOutcome_tested (cw : ControlWord) (nearest : Bool) (a b : Ext) :
    ClassTested cw [a, b] (premOutcome cw nearest a b).result := by
  have h := Result.twoOperands_tested cw a b (.ok a)
  constructor
  · intro hu
    have hu' : classOf a = .unsupported ∨ classOf b = .unsupported := by simpa using hu
    rw [premOutcome, if_pos hu']
    refine ⟨by simp [Result.invalid], by simp [Result.invalid], by simp [Result.invalid], fun him => ?_⟩
    rw [Result.keepC1OnAbort_c1]
    simp [Result.invalid, him]
  · intro hu hn
    have hu' : ¬(classOf a = .unsupported ∨ classOf b = .unsupported) := by simpa using hu
    have hn' : (isNaN a || isNaN b) = true := by simpa using hn
    rw [premOutcome, if_neg hu', if_pos hn']
    exact h.nan hu hn

/-! Every form. -/

/-- The patterns of a form's operands; v is what the memory operand holds. -/
def ResultForm.patterns (f : ResultForm) (x : Npx) (v : Nat) : List Ext := f.sources.map fun q => (q.operand x v).x

/-- Every instruction that computes one result tests the classes of its operands first. -/
theorem computedValue_tested {i : Instr} {f : ResultForm} (h : computes i = some f) (n v : Nat) (x : Npx) :
    ClassTested x.cw (f.patterns x v) (computedValue i n v x) := by
  cases ha : arithForm i with
  | some a =>
    cases (computes_of_arith ha).symm.trans h
    unfold computedValue
    simp only [ha]
    exact Result.twoOperands_tested x.cw (a.left.operand x v).x (a.right.operand x v).x _
  | none =>
    cases i with
    | fsqrt p | frndint p | f2xm1 p | fsin p | fcos p =>
      cases h
      exact Result.oneOperand_tested x.cw (x.st 0) _
    | fscale p | fpatan p | fyl2x p | fyl2xp1 p =>
      cases h
      exact Result.twoOperands_tested x.cw (x.st 0) (x.st 1) _
    | fprem p | fprem1 p =>
      cases h
      exact premOutcome_tested x.cw _ (x.st 0) (x.st 1)
    | _ => cases ha <;> cases h

theorem sources_match {i : Instr} {f : ResultForm} (h : computes i = some f) (s : State) {q : Source} (hq : q ∈ f.sources) :
    Matches (datum s i q) (q.operand s.npx (operandBytes s i)) := by
  cases ha : arithForm i with
  | some a =>
    cases (computes_of_arith ha).symm.trans h
    rcases List.mem_pair.1 hq with rfl | rfl
    · exact left_matches ha s
    · exact right_matches ha s
  | none =>
    refine datum_matches fun k hk => ?_
    subst hk
    cases i <;> cases ha <;> cases h <;> simp at hq

section

variable {i : Instr} {f : ResultForm} (h : computes i = some f) {s : State}
include h

/-- Some operand is of a class, in terms of the patterns. -/
theorem hasClass_iff {c : Class} (hd : c ≠ .denormal) (hn : c ≠ .normal) :
    f.hasClass s i c = true ↔ ∃ x ∈ f.patterns s.npx (operandBytes s i), classOf x = c := by
  have hq (q : Source) (hq : q ∈ f.sources) := (sources_match h s hq).cls_iff hd hn
  simp only [ResultForm.hasClass, ResultForm.patterns, List.any_eq_true, beq_iff_eq, List.mem_map]
  constructor
  · rintro ⟨q, hm, hc⟩
    exact ⟨_, ⟨q, hm, rfl⟩, (hq q hm).2 hc⟩
  · rintro ⟨_, ⟨q, hm, rfl⟩, hc⟩
    exact ⟨q, hm, (hq q hm).1 hc⟩

/-- A result that is not declined, of operands that are there. -/
theorem ran_computed (he : f.hasEmpty s i = false) (hd : declines i s.npx = false) :
    Ends s.npx (s.ran i).npx (Delivered s.npx (s.ran i).npx f.dest f.pops)
      (computedValue i s.draws (operandBytes s i) s.npx) := by
  have e := ran_computes (s := s) (.inl h) hd
  rw [computed, ← hasEmpty_eq (.inl h) s, he, if_neg Bool.false_ne_true] at e
  exact e

omit h in
/-- A trigonometric instruction declines a number alone. -/
theorem declines_of_top {i : Instr} {x : Npx} (hn : classOf (x.st 0) ≠ .normal) (hd : classOf (x.st 0) ≠ .denormal) :
    declines i x = false := by
  have ht : x.topTooLarge = false := by
    rw [Npx.topTooLarge, beq_false_of_ne hn, beq_false_of_ne hd]
    rfl
  cases i with
  | fsin p | fcos p | fptan p | fsincos p => simp [declines, ht]
  | _ => rfl

/-- An operand of a class that is no number's keeps the instruction from declining. -/
theorem declines_of_class {c : Class} (hd : c ≠ .denormal) (hn : c ≠ .normal) (hc : f.hasClass s i c = true) :
    declines i s.npx = false := by
  cases i with
  | fsin p | fcos p =>
    cases h
    obtain ⟨x, hx, rfl⟩ := (hasClass_iff (s := s) rfl hd hn).1 hc
    rw [ResultForm.patterns, List.map_singleton, List.mem_singleton] at hx
    subst hx
    exact declines_of_top hn hd
  | fptan p | fsincos p => cases h
  | _ => rfl

end

/-- Settles O36: every form tests the classes first. -/
theorem nanOperandsGiveQuietNans : Obligations.NanOperandsGiveQuietNans := by
  unfold Obligations.NanOperandsGiveQuietNans
  intro i s f h ho he
  have ht := computedValue_tested h s.draws (operandBytes s i) s.npx
  refine ⟨fun hu hn => ?nan, fun hu => ?unsupported⟩
  case unsupported =>
    have e := ran_computed h he (declines_of_class h (by decide) (by decide) hu)
    obtain ⟨hsig, hsf, hval, hc1⟩ := ht.unsupported ((hasClass_iff h (by decide) (by decide)).1 hu)
    obtain ⟨hm, hum⟩ := e.invalid_response hval
    exact ⟨_, exec_of_operable ho, by rw [← hsig, ← hsf]; exact e.raised, fun him => ⟨e.c1 false (hc1 him), hm him⟩, hum⟩
  case nan =>
    have e := ran_computed h he (hn.elim (declines_of_class h (by decide) (by decide))
      (declines_of_class h (by decide) (by decide)))
    have hqs : ∃ x ∈ f.patterns s.npx (operandBytes s i), isNaN x = true := by
      rw [hasClass_iff h (by decide) (by decide), hasClass_iff h (by decide) (by decide)] at hn
      rcases hn with ⟨x, hx, hc⟩ | ⟨x, hx, hc⟩
      · exact ⟨x, hx, (isNaN_iff x).2 (.inl hc)⟩
      · exact ⟨x, hx, (isNaN_iff x).2 (.inr hc)⟩
    have hu' : ∀ x ∈ f.patterns s.npx (operandBytes s i), classOf x ≠ .unsupported := fun x hx hc =>
      Bool.false_ne_true (hu.symm.trans ((hasClass_iff h (by decide) (by decide)).2 ⟨x, hx, hc⟩))
    obtain ⟨x, hx, hnan, hs, hq⟩ := ht.nan hu' hqs
    obtain ⟨q, hqm, rfl⟩ := List.mem_map.1 hx
    have hm := sources_match h s hqm
    have hdn : (datum s i q).isNaN = true := by
      have h1 := hm.cls_iff (c := .qnan) (by decide) (by decide)
      have h2 := hm.cls_iff (c := .snan) (by decide) (by decide)
      rw [isNaN_iff, h1, h2] at hnan
      simpa [Datum.isNaN] using hnan
    rw [← hasClass_iff h (by decide) (by decide)] at hs hq
    rw [hm.nan hdn] at hs hq
    cases hsn : f.hasClass s i .snan with
    | true =>
      rw [hs hsn] at e
      obtain ⟨hmask, hum⟩ := e.invalid_response rfl
      exact ⟨_, exec_of_operable ho, e.raised,
        fun him => ⟨e.c1 false rfl, q, hqm, hdn, hmask (him.resolve_left Bool.noConfusion)⟩, fun _ => hum⟩
    | false =>
      rw [hq (ne_true_of_eq_false hsn)] at e
      exact ⟨_, exec_of_operable ho, e.raised, fun _ => ⟨e.c1 false rfl, q, hqm, hdn, e.delivers _ rfl⟩,
        fun hf => Bool.noConfusion hf⟩

end Sys2Proof.Machine
end

section
/-! PROOFS. FSQRT, FRNDINT and FXTRACT of numbers (spec/44_arithmetic.md R284, R288, R289). -/

namespace Sys2Proof.Machine

/-! Operands that may be used (R168). -/

theorem usable_iff {dm : Bool} {x : Ext} :
    usable dm x = true ↔ finite x = true ∧ (classOf x = .denormal → dm = true) := by
  simp only [usable, Bool.and_eq_true, Bool.or_eq_true, bne_iff_ne]
  tauto

/-- A denormal operand is masked where it may be used. -/
theorem masked_of_usable {dm : Bool} {x : Ext} (h : usable dm x = true) : (classOf x == .denormal) = true → dm = true :=
  fun hd => (usable_iff.1 h).2 (beq_iff_eq.1 hd)

theorem unusable_iff {dm : Bool} {x : Ext} (hf : finite x = true) :
    usable dm x = false ↔ classOf x = .denormal ∧ dm = false := by
  rw [← Bool.not_eq_true, usable_iff]
  simp [hf]

/-- A number that is a multiple of the unit is its own rounding (R161). -/
theorem isRounding_self {K : Type} [Field K] [LinearOrder K] [IsStrictOrderedRing K] (rc : BitVec 2) {u : ℤ} {v : K}
    (h : ∃ n : ℤ, v = n * (2 : K) ^ u) : IsRounding rc v u v := by
  have hp : (0 : K) < 2 ^ u := zpow_pos two_pos _
  refine ⟨h, ?_⟩
  have hrc : rc.toNat < 4 := rc.isLt
  interval_cases rc.toNat
  · simp only [sub_self, abs_zero, mul_zero]
    exact ⟨hp.le, fun he => absurd he hp.ne⟩
  · exact ⟨le_rfl, by linarith⟩
  · exact ⟨le_rfl, by linarith⟩
  · exact ⟨le_rfl, by linarith, mul_self_nonneg v⟩

theorem rat_cast_sgn {K : Type} [Field K] [CharZero K] (b : Bool) : ((sgn b : ℚ) : K) = sgn b := by cases b <;> simp

/-! An instruction that replaces ST(0), of an operand that is a number. -/

section

variable {i : Instr} {s : State} (h : computes i = some ⟨[.reg 0], 0, 0⟩) (he : s.npx.empty 0 = false)
include h he

omit h he in
theorem hasEmpty_top : (⟨[.reg 0], 0, 0⟩ : ResultForm).hasEmpty s i = s.npx.empty 0 := Bool.or_false _

theorem ran_top (hd : declines i s.npx = false) :
    Ends s.npx (s.ran i).npx (Delivered s.npx (s.ran i).npx 0 0) (computedValue i s.draws (operandBytes s i) s.npx) :=
  ran_computed h (hasEmpty_top.trans he) hd

end

/-! The integer square root, bit by bit. -/

theorem isqrtFrom_spec (n k r : Nat) (hlo : r * r ≤ n) (hhi : n < (r + 2 ^ k) * (r + 2 ^ k)) :
    isqrtFrom n k r * isqrtFrom n k r ≤ n ∧ n < (isqrtFrom n k r + 1) * (isqrtFrom n k r + 1) := by
  induction k generalizing r with
  | zero => exact ⟨hlo, hhi⟩
  | succ k ih =>
    unfold isqrtFrom
    split
    case isTrue h =>
      refine ih _ h ?_
      rwa [add_assoc, ← two_mul, ← pow_succ']
    case isFalse h => exact ih r hlo (not_le.1 h)

/-- The square root of a magnitude, to 66 bits. -/
theorem sqrtMag_exactly {x : Ext} (hx : val x ≠ 0) {p : Nat} (h1 : 1 ≤ p) (h64 : p ≤ 64) :
    Exactly (sqrtMag (magOf x)) p (Real.sqrt ((|val x| : ℚ) : ℝ)) := by
  obtain ⟨shift, e, hshift, hlo, hhi, he⟩ : ∃ (shift : Nat) (e : ℤ),
      (if trueExp x % 2 = 0 then 132 else 133) = shift ∧ 132 ≤ shift ∧ shift ≤ 133 ∧ trueExp x = 2 * e + shift := by
    split
    · exact ⟨132, (trueExp x - 132) / 2, rfl, by norm_num, by norm_num, by omega⟩
    · exact ⟨133, (trueExp x - 133) / 2, rfl, by norm_num, by norm_num, by omega⟩
  have hsig0 : sig x ≠ 0 := fun h => hx ((val_eq_zero_iff x).2 h)
  have hsig := sig_lt x
  generalize hn : sig x <<< shift = n
  rw [Nat.shiftLeft_eq] at hn
  have hnlo : 2 ^ 132 ≤ n := by
    calc 2 ^ 132 ≤ 2 ^ shift := Nat.pow_le_pow_right (by norm_num) hlo
      _ ≤ sig x * 2 ^ shift := Nat.le_mul_of_pos_left _ (Nat.pos_of_ne_zero hsig0)
      _ = n := hn
  have hnhi : n < (0 + 2 ^ 100) * (0 + 2 ^ 100) := by
    calc n < 2 ^ 64 * 2 ^ shift := hn ▸ Nat.mul_lt_mul_of_pos_right hsig (by positivity)
      _ ≤ 2 ^ 64 * 2 ^ 133 := Nat.mul_le_mul_left _ (Nat.pow_le_pow_right (by norm_num) hhi)
      _ ≤ (0 + 2 ^ 100) * (0 + 2 ^ 100) := by norm_num
  obtain ⟨hr1, hr2⟩ := isqrtFrom_spec n 100 0 (Nat.zero_le _) hnhi
  have hmag : sqrtMag (magOf x) =
      { m := isqrtFrom n 100 0, e := e, sticky := isqrtFrom n 100 0 * isqrtFrom n 100 0 != n } := by
    have he' : (trueExp x - shift) / 2 = e := by omega
    show sqrtMag { m := sig x, e := trueExp x, sticky := false } = _
    rw [sqrtMag, hshift, Nat.shiftLeft_eq, hn, he']
  generalize isqrtFrom n 100 0 = r at hr1 hr2 hmag
  have hbig : 2 ^ 65 ≤ r := by
    by_contra hc
    have : (r + 1) * (r + 1) ≤ 2 ^ 65 * 2 ^ 65 := Nat.mul_le_mul (by omega) (by omega)
    have h130 : 2 ^ 65 * 2 ^ 65 < 2 ^ 132 := by norm_num
    omega
  have hval : ((|val x| : ℚ) : ℝ) = (n : ℝ) * (2 ^ e) ^ 2 := by
    rw [abs_val, he, ← hn, ← zpow_natCast, ← zpow_mul]
    push_cast
    rw [zpow_add₀ two_ne_zero, zpow_natCast, mul_comm 2 e]
    ring
  have hp : (0 : ℝ) < 2 ^ e := zpow_pos two_pos _
  have hroot : Real.sqrt ((|val x| : ℚ) : ℝ) = Real.sqrt n * 2 ^ e := by
    rw [hval, Real.sqrt_mul (Nat.cast_nonneg n), Real.sqrt_sq hp.le]
  rw [hmag, hroot]
  refine ⟨?_, (lt_of_lt_of_le (by norm_num) hbig).ne', h1, h64, fun _ => hbig⟩
  unfold Mag.Rep
  have hr1' : (r : ℝ) * r ≤ n := by exact_mod_cast hr1
  have hr2' : (n : ℝ) < (r + 1) * (r + 1) := by exact_mod_cast hr2
  dsimp only
  split
  case isTrue hs =>
    have hne : (r : ℝ) * r ≠ n := by exact_mod_cast bne_iff_ne.1 hs
    refine ⟨mul_lt_mul_of_pos_right ?_ hp, mul_lt_mul_of_pos_right ?_ hp⟩
    · rw [Real.lt_sqrt (Nat.cast_nonneg r), sq]
      exact lt_of_le_of_ne hr1' hne
    · rw [Real.sqrt_lt' (by positivity), sq]
      exact hr2'
  case isFalse hs =>
    have heq : (r : ℝ) * r = n := by exact_mod_cast (by simpa using hs : r * r = n)
    rw [← heq, Real.sqrt_mul_self (Nat.cast_nonneg r)]

theorem sqrt_zpow_two_mul (k : ℤ) : Real.sqrt ((2 : ℝ) ^ (2 * k)) = 2 ^ k := by
  rw [mul_comm, zpow_mul, zpow_ofNat, Real.sqrt_sq (zpow_pos two_pos _).le]

theorem two_zpow_le_cast {k : ℤ} {q : ℚ} : (2 : ℝ) ^ k ≤ (q : ℝ) ↔ (2 : ℚ) ^ k ≤ q := by
  rw [← Rat.cast_le (K := ℝ), Rat.cast_zpow, Rat.cast_ofNat]

theorem cast_lt_two_zpow {k : ℤ} {q : ℚ} : (q : ℝ) < (2 : ℝ) ^ k ↔ q < (2 : ℚ) ^ k := by
  rw [← Rat.cast_lt (K := ℝ), Rat.cast_zpow, Rat.cast_ofNat]

/-- The root of a number is far inside the range. -/
theorem sqrt_bounds {x : Ext} (hf : finite x = true) (hx : val x ≠ 0) :
    (2 : ℝ) ^ (-8223 : ℤ) ≤ Real.sqrt ((|val x| : ℚ) : ℝ) ∧ Real.sqrt ((|val x| : ℚ) : ℝ) < (2 : ℝ) ^ (8192 : ℤ) := by
  have h1 : (2 : ℝ) ^ (2 * (-8223) : ℤ) ≤ ((|val x| : ℚ) : ℝ) := by
    refine (two_zpow_le_two_zpow.2 (by norm_num : (2 * (-8223) : ℤ) ≤ -16445)).trans ?_
    exact two_zpow_le_cast.2 (le_abs_val hx)
  have h2 : ((|val x| : ℚ) : ℝ) < (2 : ℝ) ^ (2 * 8192 : ℤ) :=
    cast_lt_two_zpow.2 ((abs_val_lt hf).trans_le (two_zpow_le_two_zpow.2 (by norm_num)))
  rw [← sqrt_zpow_two_mul (-8223), ← sqrt_zpow_two_mul 8192]
  exact ⟨Real.sqrt_le_sqrt h1, Real.sqrt_lt_sqrt (by positivity) h2⟩

/-- FSQRT of a positive number (R284). -/
theorem sqrt_delivered {cw : ControlWord} {x : Ext} (hf : finite x = true) (hpos : 0 < val x) {p : Nat} (h1 : 1 ≤ p)
    (h64 : p ≤ 64) :
    ∃ r, deliver cw p false (sqrtMag (magOf x)) =
        { signals := { pe := decide (val r ^ 2 ≠ val x) }, val := some r, c1 := .set (decide (val x < val r ^ 2)) } ∧
      classOf r = .normal ∧
      IsRounding cw.rc (Real.sqrt (val x : ℝ)) (Int.log 2 (Real.sqrt (val x : ℝ)) - p + 1) ((val r : ℚ) : ℝ) := by
  have hm := sqrtMag_exactly (x := x) hpos.ne' h1 h64
  obtain ⟨hlo, hhi⟩ := sqrt_bounds hf hpos.ne'
  rw [abs_of_pos hpos] at hm hlo hhi
  obtain ⟨y, hround⟩ : ∃ y, IsRounding cw.rc (sgn false * Real.sqrt (val x : ℝ)) ((sqrtMag (magOf x)).log2 - p + 1) y :=
    ⟨_, (hm.roundsTo cw.rc false).isRounding⟩
  obtain ⟨pe, up, r, hd, hpe, hup, hc, hs, hv⟩ := deliver_normal hm hround
    ((two_zpow_le_two_zpow.2 (by norm_num)).trans hlo)
    ((hm.abs_lt_of_lt hround hhi).trans_le (two_zpow_le_two_zpow.2 (by norm_num)))
  rw [sgn_false, one_mul, ← hm.rep.log_eq hm.m_ne, ← hv] at hround
  rw [sgn_false, one_mul, ← hv] at hpe hup
  have hv0 : (0 : ℝ) ≤ ((val r : ℚ) : ℝ) := by
    have : 0 ≤ val r := by rw [val_eq, hs, sgn_false, one_mul]; positivity
    exact_mod_cast this
  have hx0 : (0 : ℝ) ≤ (val x : ℝ) := by exact_mod_cast hpos.le
  have heq : ((val r : ℚ) : ℝ) = Real.sqrt (val x : ℝ) ↔ val r ^ 2 = val x := by
    rw [eq_comm, Real.sqrt_eq_iff_eq_sq hx0 hv0, eq_comm]
    exact_mod_cast Iff.rfl
  have hlt : Real.sqrt (val x : ℝ) < ((val r : ℚ) : ℝ) ↔ val x < val r ^ 2 := by
    rw [Real.sqrt_lt hx0 hv0]
    exact_mod_cast Iff.rfl
  rw [abs_of_nonneg (Real.sqrt_nonneg _), abs_of_nonneg hv0, hlt] at hup
  rw [Ne, heq] at hpe
  exact ⟨r, by rw [hd, eq_decide_of_iff hpe, eq_decide_of_iff hup], hc, hround⟩

theorem sqrtResult_number {cw : ControlWord} {x : Ext} (hf : finite x = true) :
    sqrtResult cw x = if classOf x = .zero then .ok x else if signOf x then .invalid cw qnanIndef
      else .denormal cw (classOf x == .denormal) (deliver cw (precisionOf cw.pc) false (sqrtMag (magOf x))) := by
  rw [sqrtResult, Result.oneOperand_of_ordinary (ordinary_of_finite hf), if_neg (classOf_ne_infinity hf)]

/-- Settles O41: `sqrt_delivered` for a positive number, the other rows by the sign and the class. -/
theorem squareRootRoundsCorrectly : Obligations.SquareRootRoundsCorrectly := by
  unfold Obligations.SquareRootRoundsCorrectly
  intro p s ho he hf
  have e := ran_top (i := .fsqrt p) rfl he rfl
  rw [show computedValue (.fsqrt p) s.draws (operandBytes s (.fsqrt p)) s.npx = sqrtResult s.npx.cw (s.npx.st 0) from rfl,
    sqrtResult_number hf, precisionOf_eq (pc_ne_one ho rfl)] at e
  generalize s.npx.st 0 = x at hf e ⊢
  have hz : classOf x = .zero ↔ val x = 0 := classOf_zero_iff_val hf
  refine ⟨_, exec_of_operable ho, fun hpos hu => ?positive, fun hpos hu => ?denormal, fun h0 => ?zero, fun hneg => ?negative⟩
  case positive =>
    obtain ⟨h1, h64⟩ := precisionBits_bounds s.npx.cw.pc
    obtain ⟨r, hd, hc, hr⟩ := sqrt_delivered (cw := s.npx.cw) hf hpos h1 h64
    rw [if_neg (fun h => hpos.ne' (hz.1 h)), if_neg (ne_true_of_eq_false ((val_pos_iff hpos.ne').1 hpos)),
      Result.denormal_masked _ _ _ (masked_of_usable hu), hd] at e
    exact ⟨r, e.delivers r (by simp), hc, hr, by simpa using e.raised, e.c1 _ (by simp)⟩
  case denormal =>
    obtain ⟨hd, hdm⟩ := (unusable_iff hf).1 hu
    rw [if_neg (fun h => hpos.ne' (hz.1 h)), if_neg (ne_true_of_eq_false ((val_pos_iff hpos.ne').1 hpos)),
      Result.denormal_unmasked _ _ _ (beq_iff_eq.2 hd) hdm] at e
    exact ⟨e.raised, e.aborts rfl⟩
  case zero =>
    rw [if_pos (hz.2 h0)] at e
    exact ⟨e.delivers x rfl, sameFlags_of_raised e.raised, e.c1 false rfl⟩
  case negative =>
    rw [if_neg (fun h => hneg.ne (hz.1 h)), if_pos ((val_neg_iff hneg.ne).1 hneg)] at e
    obtain ⟨hm, hu⟩ := e.invalid_response rfl
    exact ⟨e.raised, fun him => ⟨hm him, e.c1 false rfl⟩, hu⟩

/-! FRNDINT (R288). -/

/-- FRNDINT of a nonzero number rounds it to an integer, with its sign. -/
theorem rndint_rounds {cw : ControlWord} {x : Ext} (hf : finite x = true) :
    ∃ r, (if 0 ≤ trueExp x then Result.ok x
        else { signals := { pe := (roundInt cw.rc x).inexact }, val := some (encodeNat (signOf x) (roundInt cw.rc x).q),
               c1 := .set (roundInt cw.rc x).up }) =
        { signals := { pe := decide (val r ≠ val x) }, val := some r, c1 := .set (decide (|val x| < |val r|)) } ∧
      finite r = true ∧ IsRounding cw.rc (val x) 0 (val r) ∧ signOf r = signOf x := by
  by_cases h : 0 ≤ trueExp x
  · refine ⟨x, by rw [if_pos h]; simp [Result.ok], hf, isRounding_self cw.rc ⟨signedInt (signOf x) (sig x * 2 ^ (trueExp x).toNat), ?_⟩, rfl⟩
    rw [signedInt_cast, val_eq, Nat.cast_mul, Nat.cast_pow, ← zpow_natCast, Int.toNat_of_nonneg h]
    simp
  · have hr := roundInt_roundsTo cw.rc x
    have hq : (roundInt cw.rc x).q ≤ 2 ^ 64 := by
      refine hr.le _ ?_
      rw [abs_val, zpow_zero, mul_one]
      have h1 : (sig x : ℚ) < ((2 ^ 64 : Nat) : ℚ) := by exact_mod_cast sig_lt x
      have h2 : (2 : ℚ) ^ trueExp x ≤ 1 := zpow_le_one_of_nonpos₀ one_le_two (by omega)
      calc (sig x : ℚ) * 2 ^ trueExp x ≤ sig x * 1 := mul_le_mul_of_nonneg_left h2 (Nat.cast_nonneg _)
        _ < ((2 ^ 64 : Nat) : ℚ) := by rwa [mul_one]
    obtain ⟨h1, h2, h3⟩ := encodeNat_spec (signOf x) hq
    have hround := hr.isRounding
    rw [zpow_zero, mul_one, ← h3, ← val_eq_sgn] at hround
    obtain ⟨-, -, hpe, hup⟩ := hr.describes (abs_nonneg _) (by rw [← val_eq_sgn]; exact hround)
    rw [← val_eq_sgn] at hpe hup
    exact ⟨_, by rw [if_neg h, eq_decide_of_iff hpe, eq_decide_of_iff hup], h1, hround, h2⟩

theorem rndintResult_number {cw : ControlWord} {x : Ext} (hf : finite x = true) :
    rndintResult cw x = if classOf x = .zero then .ok x else .denormal cw (classOf x == .denormal)
      (if 0 ≤ trueExp x then .ok x
        else { signals := { pe := (roundInt cw.rc x).inexact }, val := some (encodeNat (signOf x) (roundInt cw.rc x).q),
               c1 := .set (roundInt cw.rc x).up }) := by
  rw [rndintResult, Result.oneOperand_of_ordinary (ordinary_of_finite hf)]
  simp only [classOf_ne_infinity hf, or_false]

/-- Settles O43: `rndint_rounds`. -/
theorem roundToInteger : Obligations.RoundToInteger := by
  unfold Obligations.RoundToInteger
  intro p s ho he hf
  have e := ran_top (i := .frndint p) rfl he rfl
  rw [show computedValue (.frndint p) s.draws (operandBytes s (.frndint p)) s.npx = rndintResult s.npx.cw (s.npx.st 0) from
    rfl, rndintResult_number hf] at e
  generalize s.npx.st 0 = x at hf e ⊢
  refine ⟨_, exec_of_operable ho, fun hu => ?usable, fun hu => ?denormal⟩
  case usable =>
    by_cases hz : classOf x = .zero
    · have h0 : val x = 0 := (classOf_zero_iff_val hf).1 hz
      rw [if_pos hz] at e
      refine ⟨x, e.delivers x rfl, hf, ?_, rfl, ?_, ?_⟩
      · rw [h0]; exact isRounding_zero _ _
      · rw [hz, show (Class.zero == Class.denormal) = false from rfl]
        simpa [Result.ok] using e.raised
      · simpa using e.c1 false rfl
    · obtain ⟨r, hr, hfr, hround, hsign⟩ := rndint_rounds (cw := s.npx.cw) hf
      rw [if_neg hz, hr, Result.denormal_masked _ _ _ (masked_of_usable hu)] at e
      exact ⟨r, e.delivers r (by simp), hfr, hround, hsign, by simpa using e.raised, e.c1 _ (by simp)⟩
  case denormal =>
    obtain ⟨hd, hdm⟩ := (unusable_iff hf).1 hu
    rw [if_neg (by rw [hd]; decide), Result.denormal_unmasked _ _ _ (beq_iff_eq.2 hd) hdm] at e
    exact ⟨e.raised, e.aborts rfl⟩

/-! FXTRACT (R289). -/

theorem xtractResult_number {cw : ControlWord} {x : Ext} (hf : finite x = true) (hx : val x ≠ 0) :
    xtractResult cw x = .denormal cw (classOf x == .denormal)
      (.ok (encodeNat (decide ((magOf x).log2 < 0)) (magOf x).log2.natAbs,
        ext (signOf x) 0x3FFF (sig x <<< (63 - (sig x).log2)))) := by
  unfold xtractResult
  rcases classOf_of_finite hf hx with hc | hc <;> simp only [hc]

/-- The exponent and the significand of a nonzero number. -/
theorem xtract_spec {cw : ControlWord} {x : Ext} (hf : finite x = true) (hx : val x ≠ 0) :
    ∃ e m, xtractResult cw x = .denormal cw (classOf x == .denormal) (.ok (e, m)) ∧ finite e = true ∧ classOf m = .normal ∧ val e = Int.log 2 |val x| ∧ val m * (2 : ℚ) ^ (Int.log 2 |val x|) = val x ∧
      1 ≤ |val m| ∧ |val m| < 2 := by
  have hsig0 : sig x ≠ 0 := fun h => hx ((val_eq_zero_iff x).2 h)
  have hlog63 : (sig x).log2 < 64 := (Nat.log2_lt hsig0).2 (sig_lt x)
  have hlog : Int.log 2 |val x| = (magOf x).log2 := (magOf_rep x).log_eq hsig0
  have hdef : (magOf x).log2 = trueExp x + (sig x).log2 := rfl
  have hte := trueExp_le x (bexp_lt_of_finite hf)
  have hte' := le_trueExp x
  have hm : ext (signOf x) 0x3FFF (sig x <<< (63 - (sig x).log2)) = encodeNormal (signOf x) (sig x) (-((sig x).log2 : ℤ)) := by
    rw [encodeNormal_eq, normalSig, if_pos (by omega), add_neg_cancel]
    rfl
  obtain ⟨h1, -, h3⟩ := encodeNat_spec (decide ((magOf x).log2 < 0)) (q := (magOf x).log2.natAbs) (by omega)
  obtain ⟨hc, -, hv⟩ := encodeNormal_spec (signOf x) ⟨hsig0, (sig_lt x).le⟩ (u := -((sig x).log2 : ℤ)) (by omega) (by omega)
  have habs : |val (encodeNormal (signOf x) (sig x) (-((sig x).log2 : ℤ)))| = (sig x : ℚ) * 2 ^ (-((sig x).log2 : ℤ)) := by
    rw [hv, abs_sgn_mul, abs_of_nonneg (by positivity)]
  obtain ⟨hb1, hb2⟩ := nat_zpow_bounds (K := ℚ) hsig0 (-((sig x).log2 : ℤ))
  rw [add_neg_cancel, zpow_zero] at hb1
  rw [add_neg_cancel, zero_add, zpow_one] at hb2
  refine ⟨_, _, xtractResult_number hf hx, ?_⟩
  rw [hm, hlog]
  refine ⟨h1, hc, ?_, ?_, habs ▸ hb1, habs ▸ hb2⟩
  · rw [h3]
    rcases lt_or_ge (magOf x).log2 0 with hneg | hneg
    · rw [decide_eq_true hneg, sgn_true, Nat.cast_natAbs, abs_of_neg hneg]; push_cast; ring
    · rw [decide_eq_false (not_lt.2 hneg), sgn_false, Nat.cast_natAbs, abs_of_nonneg hneg, one_mul]
  · rw [hv, hdef, val_eq x, mul_assoc, mul_assoc, ← zpow_add₀ two_ne_zero]
    congr 3
    ring

theorem ran_pairValue {i : Instr} (h : makesPair i = true) {s : State} (he : s.npx.empty 0 = false)
    (hfull : s.npx.full = false) (hd : declines i s.npx = false) :
    Ends s.npx (s.ran i).npx (fun v => DeliveredPair s.npx (s.ran i).npx v.1 v.2) (pairValue i s.npx) := by
  have e := ran_pair (s := s) h hd
  rw [pairResult, he, hfull] at e
  exact e

/-- Settles O48: `xtract_spec`. -/
theorem extractSplitsTheNumber : Obligations.ExtractSplitsTheNumber := by
  unfold Obligations.ExtractSplitsTheNumber
  intro p s ho he hfull hf
  have e := ran_pairValue (i := .fxtract p) rfl he hfull rfl
  rw [show pairValue (.fxtract p) s.npx = xtractResult s.npx.cw (s.npx.st 0) from rfl] at e
  generalize s.npx.st 0 = x at hf e ⊢
  refine ⟨_, exec_of_operable ho, fun hx hu => ?usable, fun hx hu => ?denormal, fun h0 => ?zero⟩
  case usable =>
    obtain ⟨a, m, hr, h1, h2, h3, h4, h5, h6⟩ := xtract_spec (cw := s.npx.cw) hf hx
    rw [hr, Result.denormal_masked _ _ _ (masked_of_usable hu)] at e
    exact ⟨a, m, e.delivers (a, m) (by simp [Result.ok]), h1, h2, h3, h4, h5, h6, by simpa [Result.ok] using e.raised,
      e.c1 false (by simp [Result.ok])⟩
  case denormal =>
    obtain ⟨hd, hdm⟩ := (unusable_iff hf).1 hu
    rw [xtractResult_number hf hx, Result.denormal_unmasked _ _ _ (beq_iff_eq.2 hd) hdm] at e
    exact ⟨e.raised, e.aborts rfl⟩
  case zero =>
    have hz : classOf x = .zero := (classOf_zero_iff_val hf).2 h0
    have hzx : zeroOf (signOf x) = x := by
      obtain ⟨hb, hs⟩ := (classOf_zero_iff x).1 hz
      rw [zeroOf]
      conv_rhs => rw [← ext_fields x, hb, hs]
    have hr : xtractResult s.npx.cw x = .zeroDivide s.npx.cw (infinity true, x) := by
      unfold xtractResult
      simp only [hz, hzx]
    rw [hr] at e
    exact ⟨e.raised, fun hm => ⟨e.delivers _ (if_pos hm), e.c1 false rfl⟩,
      fun hm => e.aborts (if_neg (ne_true_of_eq_false hm))⟩

end Sys2Proof.Machine
end

section
/-! PROOFS. FSCALE (spec/44_arithmetic.md R285): the truncated exponent, and the product in range and out of it. -/

namespace Sys2Proof.Machine

/-! Results that fit the 64 bits of a significand are delivered exactly. -/

section

variable {K : Type} [Field K] [LinearOrder K] [IsStrictOrderedRing K]

/-- A magnitude of at most 64 significant bits is its own rounding to 64 bits. -/
theorem isRounding_of_narrow {v : Mag} {a : K} (h : v.Rep a) (hs : v.sticky = false) (h0 : v.m ≠ 0) {m j : Nat}
    (hm : v.m = m * 2 ^ j) (hlt : m < 2 ^ 64) (rc : BitVec 2) (neg : Bool) :
    IsRounding rc (sgn neg * a) (v.log2 - (64 : Nat) + 1) (sgn neg * a) := by
  have ha : a = (v.m : K) * 2 ^ v.e := by simpa [Mag.Rep, hs] using h
  have hm0 : m ≠ 0 := fun hz => h0 (by rw [hm, hz, Nat.zero_mul])
  have hlog : v.m.log2 ≤ 63 + j := by
    have hml : v.m < 2 ^ (64 + j) := by
      rw [hm, pow_add]
      exact Nat.mul_lt_mul_of_pos_right hlt (by positivity)
    have := (Nat.log2_lt h0).2 hml
    omega
  have hu : v.log2 - (64 : Nat) + 1 ≤ v.e + j := by
    unfold Mag.log2
    push_cast
    omega
  generalize v.log2 - (64 : Nat) + 1 = u at hu
  refine isRounding_self rc ⟨signedInt neg (m * 2 ^ (v.e + j - u).toNat), ?_⟩
  rw [signedInt_cast, mul_assoc (sgn neg), ha, hm]
  congr 1
  push_cast
  rw [mul_assoc, mul_assoc, ← zpow_natCast, ← zpow_natCast, ← zpow_add₀ two_ne_zero, ← zpow_add₀ two_ne_zero,
    Int.toNat_of_nonneg (by omega)]
  congr 2
  ring

variable {cw : ControlWord} {neg : Bool} {v : Mag} {a : K} (h : Exactly v 64 a)
  (he : IsRounding cw.rc (sgn neg * a) (v.log2 - (64 : Nat) + 1) (sgn neg * a))
include h he

/-- In range: without an exception. -/
theorem deliver_exact_normal (hlo : (2 : K) ^ (-16382 : ℤ) ≤ a) (hhi : a < (2 : K) ^ (16384 : ℤ)) :
    ∃ x, deliver cw 64 neg v = { signals := {}, val := some x, c1 := .set false } ∧ NormalFor neg (sgn neg * a) x := by
  obtain ⟨pe, up, x, hd, hpe, hup, hx⟩ := deliver_normal h he hlo (by rwa [abs_sgn_mul, abs_of_pos h.pos])
  have hpe' : pe = false := Bool.eq_false_iff.2 fun hc => hpe.1 hc rfl
  have hup' : up = false := Bool.eq_false_iff.2 fun hc => (hup.1 hc).false
  exact ⟨x, by rw [hd, hpe', hup'], hx⟩

/-- Overflow, unmasked: OE alone (R163). -/
theorem deliver_exact_overflow (hhi : (2 : K) ^ (16384 : ℤ) ≤ a) (hom : cw.om = false) :
    ∃ x, deliver cw 64 neg v = { signals := { oe := true }, val := some x, c1 := .set false } ∧
      (a < (2 : K) ^ (16384 + 24576 : ℤ) → NormalFor neg (sgn neg * a / 2 ^ (24576 : ℤ)) x) ∧
      ((2 : K) ^ (16384 + 24576 : ℤ) ≤ a → x = infinity neg) := by
  obtain ⟨pe, up, x, hd, hpe, hup, hx⟩ := deliver_overflow_unmasked h he (by rwa [abs_sgn_mul, abs_of_pos h.pos]) hom
  have hpe' : pe = false := Bool.eq_false_iff.2 fun hc => hpe.1 hc rfl
  have hup' : up = false := Bool.eq_false_iff.2 fun hc => (hup.1 hc).false
  rw [abs_sgn_mul, abs_of_pos h.pos] at hx
  exact ⟨x, by rw [hd, hpe', hup'], hx⟩

/-- Underflow, unmasked: UE alone (R165). -/
theorem deliver_exact_underflow (hlo : a < (2 : K) ^ (-16382 : ℤ)) (hum : cw.um = false) :
    ∃ x, deliver cw 64 neg v = { signals := { ue := true }, val := some x, c1 := .set false } ∧
      ((2 : K) ^ (-16382 - 24576 : ℤ) ≤ a → NormalFor neg (sgn neg * a * 2 ^ (24576 : ℤ)) x) ∧
      (a < (2 : K) ^ (-16382 - 24576 : ℤ) → x = zeroOf neg) := by
  obtain ⟨pe, up, x, hd, hpe, hup, hx⟩ := deliver_underflow_unmasked h he (by rwa [abs_sgn_mul, abs_of_pos h.pos]) hum
  have hpe' : pe = false := Bool.eq_false_iff.2 fun hc => hpe.1 hc rfl
  have hup' : up = false := Bool.eq_false_iff.2 fun hc => (hup.1 hc).false
  rw [abs_sgn_mul, abs_of_pos h.pos] at hx
  exact ⟨x, by rw [hd, hpe', hup'], hx⟩

end

/-! The exponent of the scaling (R285). -/

/-- ST(1) truncated, as FSCALE uses it. -/
def scaleExponent (y : Ext) : ℤ :=
  if classOf y = .zero then 0 else if signOf y then -(truncClamped y : ℤ) else truncClamped y

/-- The exponent in use is n, or both are so large or so small that every scaling overflows or underflows beyond the
adjusted range. -/
def ClampOf (n e : ℤ) : Prop := e = n ∨ (65536 ≤ n ∧ e = 65536) ∨ (n ≤ -65536 ∧ e = -65536)

theorem roundInt_truncate {y : Ext} (h : trueExp y < 0) : (roundInt 3 y).q = sig y >>> (-(trueExp y)).toNat := by
  rw [roundInt, roundAt]
  simp only [magOf, zero_sub, not_le.2 h, if_false]
  rfl

theorem clampOf_scaleExponent {y : Ext} (hf : finite y = true) {n : ℤ} (hn : IsRounding 3 (val y) 0 (n : ℚ)) :
    ClampOf n (scaleExponent y) := by
  unfold scaleExponent
  by_cases h0 : val y = 0
  · rw [h0] at hn
    have hn0 : (n : ℚ) = 0 := hn.unique (isRounding_zero 3 0)
    rw [if_pos ((classOf_zero_iff_val hf).2 h0)]
    exact .inl (Int.cast_eq_zero.1 hn0).symm
  · rw [if_neg fun hz => h0 ((classOf_zero_iff_val hf).1 hz)]
    have hsig0 : sig y ≠ 0 := fun h => h0 ((val_eq_zero_iff y).2 h)
    unfold truncClamped
    by_cases hbig : 16 ≤ (magOf y).log2
    · rw [if_pos hbig]
      obtain ⟨-, habs⟩ := hn
      obtain ⟨-, hlt, hsign⟩ : |(n : ℚ)| ≤ |val y| ∧ |val y| < |(n : ℚ)| + 2 ^ (0 : ℤ) ∧ 0 ≤ (n : ℚ) * val y := habs
      have hlo : (2 : ℚ) ^ (16 : ℤ) ≤ |val y| :=
        (two_zpow_le_two_zpow.2 hbig).trans ((magOf_rep y).log2_bounds hsig0).1
      have habs' : 65536 ≤ |n| := by
        have : (65535 : ℚ) < ((|n| : ℤ) : ℚ) := by
          rw [Int.cast_abs]
          norm_num at hlo hlt
          linarith
        have : 65535 < |n| := by exact_mod_cast this
        omega
      have hn0 : (n : ℚ) ≠ 0 := by
        rw [Ne, Int.cast_eq_zero]
        rintro rfl
        simp at habs'
      have hpos : 0 < (n : ℚ) * val y := lt_of_le_of_ne hsign (mul_ne_zero hn0 h0).symm
      cases hs : signOf y with
      | true =>
        have hneg : (n : ℚ) < 0 := by
          have := (val_neg_iff h0).2 hs
          by_contra hc
          nlinarith
        have : n < 0 := by exact_mod_cast hneg
        rw [abs_of_neg this] at habs'
        exact .inr (.inr ⟨by omega, rfl⟩)
      | false =>
        have hp : 0 < (n : ℚ) := by
          have := (val_pos_iff h0).2 hs
          by_contra hc
          nlinarith
        have : 0 < n := by exact_mod_cast hp
        rw [abs_of_pos this] at habs'
        exact .inr (.inl ⟨habs', rfl⟩)
    · have hte : trueExp y < 0 := by
        have hdef : (magOf y).log2 = trueExp y + (sig y).log2 := rfl
        rcases (finite_iff y).1 hf with hb | ⟨-, hs⟩
        · rw [trueExp, hb]; norm_num
        · have : 63 ≤ (sig y).log2 := (Nat.le_log2 hsig0).2 hs
          omega
      rw [if_neg hbig, ← roundInt_truncate hte]
      exact .inl (roundInt_spec hn).1.symm

/-! The product. -/

/-- ST(0) times a power of two, as `deliver` takes it. -/
def scaledMag (x : Ext) (e : ℤ) : Mag := { magOf x with e := (magOf x).e + e }

theorem scaledMag_exactly {x : Ext} (hx : val x ≠ 0) (e : ℤ) : Exactly (scaledMag x e) 64 |val x * 2 ^ e| := by
  refine ⟨?_, fun h => hx ((val_eq_zero_iff x).2 h), by norm_num, le_rfl, fun h => by cases h⟩
  show |val x * 2 ^ e| = (sig x : ℚ) * 2 ^ (trueExp x + e)
  rw [abs_mul, abs_val, abs_of_pos (zpow_pos two_pos e), zpow_add₀ two_ne_zero, mul_assoc]

theorem scaledMag_rounding {x : Ext} (hx : val x ≠ 0) (e : ℤ) (rc : BitVec 2) (neg : Bool) :
    IsRounding rc (sgn neg * |val x * 2 ^ e|) ((scaledMag x e).log2 - (64 : Nat) + 1) (sgn neg * |val x * 2 ^ e|) :=
  isRounding_of_narrow (scaledMag_exactly hx e).rep rfl (scaledMag_exactly hx e).m_ne (m := sig x) (j := 0)
    (by rw [pow_zero, mul_one]; rfl) (sig_lt x) rc neg

theorem sgn_mul_abs_scaled (x : Ext) (e : ℤ) : sgn (signOf x) * |val x * 2 ^ e| = val x * 2 ^ e := by
  rw [abs_mul, abs_of_pos (zpow_pos two_pos e : (0 : ℚ) < 2 ^ e), ← mul_assoc, ← val_eq_sgn]

theorem scaleResult_number {cw : ControlWord} {x y : Ext} (hx : finite x = true) (hy : finite y = true) :
    scaleResult cw x y = .denormal cw (classOf x == .denormal || classOf y == .denormal)
      (if classOf x = .zero then .ok x else deliver cw 64 (signOf x) (scaledMag x (scaleExponent y))) := by
  rw [scaleResult, Result.twoOperands_of_ordinary (ordinary_of_finite hx) (ordinary_of_finite hy)]
  simp only [classOf_ne_infinity hx, classOf_ne_infinity hy, false_and, and_false, or_self, if_false, false_or]
  rfl

/-- How FSCALE of two numbers ends. -/
theorem ran_fscale {p : List PrefixByte} {s : State} (h0 : s.npx.empty 0 = false) (h1 : s.npx.empty 1 = false)
    (hx : usable s.npx.cw.dm (s.npx.st 0) = true) (hy : usable s.npx.cw.dm (s.npx.st 1) = true) :
    Ends s.npx (s.ran (.fscale p)).npx (Delivered s.npx (s.ran (.fscale p)).npx 0 0)
      ((if classOf (s.npx.st 0) = .zero then .ok (s.npx.st 0) else
          deliver s.npx.cw 64 (signOf (s.npx.st 0)) (scaledMag (s.npx.st 0) (scaleExponent (s.npx.st 1)))).withDenormal
        (classOf (s.npx.st 0) == .denormal || classOf (s.npx.st 1) == .denormal)) := by
  obtain ⟨hfx, hdx⟩ := usable_iff.1 hx
  obtain ⟨hfy, hdy⟩ := usable_iff.1 hy
  have he : (⟨[.reg 0, .reg 1], 0, 0⟩ : ResultForm).hasEmpty s (.fscale p) = false := by
    show (s.npx.empty 0 || (s.npx.empty 1 || false)) = false
    rw [h0, h1]
    rfl
  have e := ran_computed (i := .fscale p) rfl he rfl
  rw [show computedValue (.fscale p) s.draws (operandBytes s (.fscale p)) s.npx =
      scaleResult s.npx.cw (s.npx.st 0) (s.npx.st 1) from rfl, scaleResult_number hfx hfy, Result.denormal_masked] at e
  · exact e
  · intro hd
    simp only [Bool.or_eq_true, beq_iff_eq] at hd
    exact hd.elim hdx hdy

/-! Where the scaling is clamped. -/

/-- v and w are one number, or both beyond the range that an adjusted exponent reaches, on the same side. -/
def Alike (v w : ℚ) : Prop :=
  w = v ∨ ((2 : ℚ) ^ (16384 + 24576 : ℤ) ≤ |v| ∧ (2 : ℚ) ^ (16384 + 24576 : ℤ) ≤ |w|) ∨
    (|v| < (2 : ℚ) ^ (-16382 - 24576 : ℤ) ∧ |w| < (2 : ℚ) ^ (-16382 - 24576 : ℤ))

theorem alike_of_clampOf {x : Ext} (hf : finite x = true) (hx : val x ≠ 0) {n e : ℤ} (h : ClampOf n e) :
    Alike (val x * 2 ^ n) (val x * 2 ^ e) := by
  have hp (k : ℤ) : (0 : ℚ) < 2 ^ k := zpow_pos two_pos k
  have habs (k : ℤ) : |val x * 2 ^ k| = |val x| * 2 ^ k := by rw [abs_mul, abs_of_pos (hp k)]
  have hbig {k : ℤ} (hk : 65536 ≤ k) : (2 : ℚ) ^ (16384 + 24576 : ℤ) ≤ |val x * 2 ^ k| := by
    rw [habs]
    calc (2 : ℚ) ^ (16384 + 24576 : ℤ) ≤ 2 ^ (-16445 + k : ℤ) := two_zpow_le_two_zpow.2 (by linarith)
      _ = 2 ^ (-16445 : ℤ) * 2 ^ k := zpow_add₀ two_ne_zero _ _
      _ ≤ |val x| * 2 ^ k := mul_le_mul_of_nonneg_right (le_abs_val hx) (hp k).le
  have hsmall {k : ℤ} (hk : k ≤ -65536) : |val x * 2 ^ k| < (2 : ℚ) ^ (-16382 - 24576 : ℤ) := by
    rw [habs]
    calc |val x| * 2 ^ k < 2 ^ (16384 : ℤ) * 2 ^ k := mul_lt_mul_of_pos_right (abs_val_lt hf) (hp k)
      _ = 2 ^ (16384 + k : ℤ) := (zpow_add₀ two_ne_zero _ _).symm
      _ ≤ 2 ^ (-16382 - 24576 : ℤ) := two_zpow_le_two_zpow.2 (by linarith)
  rcases h with rfl | ⟨hn, rfl⟩ | ⟨hn, rfl⟩
  · exact .inl rfl
  · exact .inr (.inl ⟨hbig hn, hbig le_rfl⟩)
  · exact .inr (.inr ⟨hsmall hn, hsmall le_rfl⟩)

/-- In range the exponent is not clamped, and the product is exact. -/
theorem scale_normal {cw : ControlWord} {x : Ext} (hf : finite x = true) (hx : val x ≠ 0) {n e : ℤ} (h : ClampOf n e)
    (hlo : (2 : ℚ) ^ (-16382 : ℤ) ≤ |val x * 2 ^ n|) (hhi : |val x * 2 ^ n| < (2 : ℚ) ^ (16384 : ℤ)) :
    ∃ r, deliver cw 64 (signOf x) (scaledMag x e) = { signals := {}, val := some r, c1 := .set false } ∧ finite r = true ∧
      val r = val x * 2 ^ n := by
  have hc : val x * 2 ^ e = val x * 2 ^ n := by
    rcases alike_of_clampOf hf hx h with h | ⟨h, -⟩ | ⟨h, -⟩
    · exact h
    · exact absurd (h.trans_lt hhi) (not_lt.2 (two_zpow_le_two_zpow.2 (by norm_num)))
    · exact absurd (hlo.trans_lt h) (not_lt.2 (two_zpow_le_two_zpow.2 (by norm_num)))
  obtain ⟨r, hd, hcls, -, hval⟩ := deliver_exact_normal (cw := cw) (scaledMag_exactly hx e)
    (scaledMag_rounding hx e cw.rc (signOf x)) (by rwa [hc]) (by rwa [hc])
  rw [sgn_mul_abs_scaled, hc, Rat.cast_id] at hval
  exact ⟨r, hd, finite_of_normal hcls, hval⟩

/-- A nonzero product has a nonzero factor. -/
theorem val_ne_zero_of_scaled {x : Ext} {n : ℤ} (h : val x * 2 ^ n ≠ 0) : val x ≠ 0 := left_ne_zero_of_mul h

theorem ne_zero_of_two_zpow_le {k : ℤ} {v : ℚ} (h : (2 : ℚ) ^ k ≤ |v|) : v ≠ 0 := fun hv => by
  rw [hv, abs_zero] at h
  exact absurd h (not_le.2 (zpow_pos two_pos _))

/-- Settles O44: `scale_normal`. -/
theorem scaleIsExact : Obligations.ScaleIsExact := by
  unfold Obligations.ScaleIsExact
  intro p s n ho h0 h1 hx hy hn hlo hhi
  have hfx := (usable_iff.1 hx).1
  have hv := val_ne_zero_of_scaled (ne_zero_of_two_zpow_le hlo)
  have e := ran_fscale (p := p) h0 h1 hx hy
  obtain ⟨r, hd, hfr, hval⟩ := scale_normal (cw := s.npx.cw) hfx hv (clampOf_scaleExponent (usable_iff.1 hy).1 hn) hlo hhi
  rw [if_neg (fun hz => hv ((classOf_zero_iff_val hfx).1 hz)), hd] at e
  exact ⟨_, r, exec_of_operable ho, e.delivers r (by simp), hfr, hval, by simpa using e.raised, e.c1 false (by simp)⟩

/-! A number far below the smallest denormal. -/

/-- The rounding of a number below half a unit is zero or one unit, by its sign alone. -/
theorem isRounding_tiny {rc : BitVec 2} {neg : Bool} {a : ℚ} {u : ℤ} (ha : 0 < a) (hu : 2 * a < 2 ^ u) :
    IsRounding rc (sgn neg * a) u (sgn neg * ((rounded rc neg 0 true .lt : Nat) * 2 ^ u)) := by
  have h : UnitsIn a u 0 true .lt := by
    have hp : (0 : ℚ) < 2 ^ u := zpow_pos two_pos u
    refine ⟨by simpa using ha.le, by simp; linarith, by simpa using ha.ne', ?_⟩
    rw [Nat.cast_zero, zero_mul, sub_zero]
    exact (compare_lt_iff_lt.2 hu).symm
  exact h.isRounding rc neg

/-- What a masked underflow delivers of one such number is also right for another of the same sign. -/
theorem tiny_alike {rc : BitVec 2} {neg : Bool} {a b : ℚ} (ha : 0 < a) (hb : 0 < b) (ha' : a < 2 ^ (-16382 - 24576 : ℤ))
    (hb' : b < 2 ^ (-16382 - 24576 : ℤ)) {y : ℚ} (hy : IsRounding rc (sgn neg * b) (-16445) y) :
    IsRounding rc (sgn neg * a) (-16445) y ∧ (y ≠ sgn neg * a ↔ y ≠ sgn neg * b) ∧
      (|sgn neg * a| < |y| ↔ |sgn neg * b| < |y|) := by
  have hunit : (2 : ℚ) * 2 ^ (-16382 - 24576 : ℤ) ≤ 2 ^ (-16445 : ℤ) := by
    rw [mul_comm, ← zpow_add_one₀ two_ne_zero]
    exact two_zpow_le_two_zpow.2 (by norm_num)
  generalize (2 : ℚ) ^ (-16382 - 24576 : ℤ) = t at ha' hb' hunit
  have hy' := hy.unique (isRounding_tiny hb (by linarith))
  refine ⟨hy' ▸ isRounding_tiny ha (by linarith), ?_⟩
  have hp : (0 : ℚ) < 2 ^ (-16445 : ℤ) := zpow_pos two_pos _
  have habs : |y| = ((rounded rc neg 0 true .lt : Nat) : ℚ) * 2 ^ (-16445 : ℤ) := by
    rw [hy', abs_sgn_mul, abs_of_nonneg (by positivity)]
  generalize (2 : ℚ) ^ (-16445 : ℤ) = u at hunit hp habs hy'
  have hcases : |y| = 0 ∨ |y| = u := by
    rw [habs]
    unfold rounded
    split <;> simp
  have hne {c : ℚ} (hc : 0 < c) (hc' : c < t) : y ≠ sgn neg * c := by
    intro h
    rw [h, abs_sgn_mul, abs_of_pos hc] at hcases
    rcases hcases with h | h <;> linarith
  refine ⟨iff_of_true (hne ha ha') (hne hb hb'), ?_⟩
  rw [abs_sgn_mul, abs_sgn_mul, abs_of_pos ha, abs_of_pos hb]
  rcases hcases with h | h
  · exact iff_of_false (by linarith) (by linarith)
  · exact iff_of_true (by linarith) (by linarith)

/-- The largest finite number of a sign (R163). -/
theorem largestFinite_64 (neg : Bool) :
    largestFinite neg 64 = BitVec.ofBool neg ++ (0x7FFEFFFFFFFFFFFFFFFF : BitVec 79) := by
  revert neg
  decide

/-- Overflow of a scaling (R163, R285). -/
theorem scale_overflow {cw : ControlWord} {x : Ext} (hf : finite x = true) (hx : val x ≠ 0) {n e : ℤ} (h : ClampOf n e)
    (hhi : (2 : ℚ) ^ (16384 : ℤ) ≤ |val x * 2 ^ n|) :
    (cw.om = true → deliver cw 64 (signOf x) (scaledMag x e) =
      { signals := { oe := true, pe := true },
        val := some (if overflowsToInfinity cw.rc (signOf x) then infinity (signOf x) else largestFinite (signOf x) 64),
        c1 := .set (overflowsToInfinity cw.rc (signOf x)) }) ∧
    (cw.om = false → ∃ r, deliver cw 64 (signOf x) (scaledMag x e) =
        { signals := { oe := true }, val := some r, c1 := .set false } ∧
      (|val x * 2 ^ n| < (2 : ℚ) ^ (16384 + 24576 : ℤ) → finite r = true ∧ val r * (2 : ℚ) ^ (24576 : ℤ) = val x * 2 ^ n) ∧
      ((2 : ℚ) ^ (16384 + 24576 : ℤ) ≤ |val x * 2 ^ n| → r = infinity (signOf x))) := by
  have hm := scaledMag_exactly hx e
  have hr := scaledMag_rounding hx e cw.rc (signOf x)
  have hal := alike_of_clampOf hf hx h
  have hsg := sgn_mul_abs_scaled x e
  generalize val x * 2 ^ e = w at hm hr hal hsg
  generalize val x * 2 ^ n = v at hhi hal ⊢
  have hsmall (h : |v| < (2 : ℚ) ^ (-16382 - 24576 : ℤ)) : False :=
    absurd (hhi.trans_lt h) (not_lt.2 (two_zpow_le_two_zpow.2 (by norm_num)))
  have heq (hnear : |v| < (2 : ℚ) ^ (16384 + 24576 : ℤ)) : w = v := by
    rcases hal with h | ⟨h, -⟩ | ⟨h, -⟩
    · exact h
    · exact absurd hnear (not_lt.2 h)
    · exact (hsmall h).elim
  have hfar (hfar : (2 : ℚ) ^ (16384 + 24576 : ℤ) ≤ |v|) : (2 : ℚ) ^ (16384 + 24576 : ℤ) ≤ |w| := by
    rcases hal with h | ⟨-, h⟩ | ⟨h, -⟩
    · rwa [h]
    · exact h
    · exact (hsmall h).elim
  have hhi' : (2 : ℚ) ^ (16384 : ℤ) ≤ |w| := by
    rcases lt_or_ge |v| ((2 : ℚ) ^ (16384 + 24576 : ℤ)) with h | h
    · exact hhi.trans_eq (congrArg _ (heq h).symm)
    · exact (two_zpow_le_two_zpow.2 (by norm_num)).trans (hfar h)
  refine ⟨fun hom => ?_, fun hom => ?_⟩
  · rw [deliver_overflow hm hr (by rwa [abs_sgn_mul, abs_abs]), deliverOverflow_masked hom]
  · obtain ⟨r, hd, hnear, hinf⟩ := deliver_exact_overflow (cw := cw) hm hr hhi' hom
    refine ⟨r, hd, fun hlt => ?_, fun hge => hinf (hfar hge)⟩
    obtain ⟨hcls, -, hval⟩ := hnear (by rwa [heq hlt])
    rw [hsg, heq hlt, Rat.cast_id] at hval
    exact ⟨finite_of_normal hcls, by rw [hval, div_mul_cancel₀ _ (zpow_ne_zero _ two_ne_zero)]⟩

/-- Underflow of a scaling (R165, R285). -/
theorem scale_underflow {cw : ControlWord} {x : Ext} (hf : finite x = true) (hx : val x ≠ 0) {n e : ℤ} (h : ClampOf n e)
    (hlo : |val x * 2 ^ n| < (2 : ℚ) ^ (-16382 : ℤ)) :
    (cw.um = true → ∃ lost up r, deliver cw 64 (signOf x) (scaledMag x e) =
        { signals := { ue := lost, pe := lost }, val := some r, c1 := .set up } ∧ finite r = true ∧ signOf r = signOf x ∧
      IsRounding cw.rc (val x * 2 ^ n) (-16445) (val r) ∧ (lost = true ↔ val r ≠ val x * 2 ^ n) ∧
      (up = true ↔ |val x * 2 ^ n| < |val r|)) ∧
    (cw.um = false → ∃ r, deliver cw 64 (signOf x) (scaledMag x e) =
        { signals := { ue := true }, val := some r, c1 := .set false } ∧ finite r = true ∧ signOf r = signOf x ∧
      ((2 : ℚ) ^ (-16382 - 24576 : ℤ) ≤ |val x * 2 ^ n| → val r = val x * 2 ^ n * (2 : ℚ) ^ (24576 : ℤ)) ∧
      (|val x * 2 ^ n| < (2 : ℚ) ^ (-16382 - 24576 : ℤ) → r = zeroOf (signOf x))) := by
  have hm := scaledMag_exactly hx e
  have hr := scaledMag_rounding hx e cw.rc (signOf x)
  have hal := alike_of_clampOf hf hx h
  have hsg := sgn_mul_abs_scaled x e
  have hsv := sgn_mul_abs_scaled x n
  have hv : val x * 2 ^ n ≠ 0 := mul_ne_zero hx (zpow_ne_zero _ two_ne_zero)
  generalize val x * 2 ^ e = w at hm hr hal hsg
  generalize val x * 2 ^ n = v at hlo hal hsv hv ⊢
  have hbig (h : (2 : ℚ) ^ (16384 + 24576 : ℤ) ≤ |v|) : False :=
    absurd (h.trans_lt hlo) (not_lt.2 (two_zpow_le_two_zpow.2 (by norm_num)))
  have hlo' : |w| < (2 : ℚ) ^ (-16382 : ℤ) := by
    rcases hal with h | ⟨h, -⟩ | ⟨-, h⟩
    · rwa [h]
    · exact (hbig h).elim
    · exact h.trans_le (two_zpow_le_two_zpow.2 (by norm_num))
  refine ⟨fun hum => ?_, fun hum => ?_⟩
  · obtain ⟨lost, up, r, hd, hlost, hup, hfr, hs, hround⟩ :=
      deliver_underflow_masked (cw := cw) hm hr (by rwa [abs_sgn_mul, abs_abs]) hum
    rw [Rat.cast_id] at hlost hup hround
    rw [show (-16381 - (64 : Nat) : ℤ) = -16445 by norm_num] at hround
    refine ⟨lost, up, r, hd, hfr, hs, ?_⟩
    rcases hal with h | ⟨h, -⟩ | ⟨h, h'⟩
    · rw [hsg, h] at hround hlost hup
      exact ⟨hround, hlost, hup⟩
    · exact (hbig h).elim
    · obtain ⟨h1, h2, h3⟩ := tiny_alike (neg := signOf x) (abs_pos.2 hv) hm.pos h h' hround
      rw [hsv] at h1 h2 h3
      exact ⟨h1, hlost.trans h2.symm, hup.trans h3.symm⟩
  · obtain ⟨r, hd, hnear, hzero⟩ := deliver_exact_underflow (cw := cw) hm hr hlo' hum
    have hr' : finite r = true ∧ signOf r = signOf x := by
      rcases lt_or_ge |w| ((2 : ℚ) ^ (-16382 - 24576 : ℤ)) with hc | hc
      · rw [hzero hc]
        exact ⟨finite_zeroOf _, (zeroOf_spec _).2.1⟩
      · obtain ⟨hcls, hs, -⟩ := hnear hc
        exact ⟨finite_of_normal hcls, hs⟩
    refine ⟨r, hd, hr'.1, hr'.2, fun hge => ?_, fun hlt => ?_⟩
    · have hw : w = v := by
        rcases hal with h | ⟨h, -⟩ | ⟨h, -⟩
        · exact h
        · exact (hbig h).elim
        · exact absurd h (not_lt.2 hge)
      obtain ⟨-, -, hval⟩ := hnear (by rwa [hw])
      rwa [hsg, hw, Rat.cast_id] at hval
    · refine hzero ?_
      rcases hal with h | ⟨h, -⟩ | ⟨-, h⟩
      · rwa [h]
      · exact (hbig h).elim
      · exact h

/-- Settles O45: `scale_overflow` and `scale_underflow`. -/
theorem scaleOverflowAndUnderflow : Obligations.ScaleOverflowAndUnderflow := by
  unfold Obligations.ScaleOverflowAndUnderflow
  intro p s n ho h0 h1 hx hy hn
  have e := ran_fscale (p := p) h0 h1 hx hy
  have hfx := (usable_iff.1 hx).1
  have hcl := clampOf_scaleExponent (usable_iff.1 hy).1 hn
  clear hx hy hn
  generalize scaleExponent (s.npx.st 1) = k at e hcl
  generalize s.npx.st 0 = x at e hfx ⊢
  generalize (classOf x == .denormal || classOf (s.npx.st 1) == .denormal) = den at e ⊢
  intro v neg _ inf
  have hz (hv : v ≠ 0) : classOf x ≠ .zero := fun hz => val_ne_zero_of_scaled hv ((classOf_zero_iff_val hfx).1 hz)
  refine ⟨fun hhi => ?overflow, fun hv hlo => ?underflow⟩
  case overflow =>
    have hv := ne_zero_of_two_zpow_le hhi
    obtain ⟨hmasked, hunmasked⟩ := scale_overflow (cw := s.npx.cw) hfx (val_ne_zero_of_scaled hv) hcl hhi
    rw [if_neg (hz hv)] at e
    have hi : overflowsToInfinity s.npx.cw.rc (signOf x) = true ↔ inf := overflowsToInfinity_iff _ _
    cases hom : s.npx.cw.om with
    | true =>
      rw [hmasked hom] at e
      refine ⟨_, _, exec_of_operable ho, e.delivers _ (by simp; rfl), fun _ => ⟨by simpa using e.raised, fun hinf => ?_,
        fun hinf => ?_⟩, fun h => Bool.noConfusion h⟩
      · exact ⟨(if_pos (hi.2 hinf)).trans (infinity_eq _), (e.c1 _ (by simp)).trans (hi.2 hinf)⟩
      · have hf : overflowsToInfinity s.npx.cw.rc (signOf x) = false := Bool.eq_false_iff.2 fun ht => hinf (hi.1 ht)
        exact ⟨(if_neg (ne_true_of_eq_false hf)).trans (largestFinite_64 _), (e.c1 _ (by simp)).trans hf⟩
    | false =>
      obtain ⟨r, hd, hnear, hinf⟩ := hunmasked hom
      rw [hd] at e
      obtain ⟨hes, hb⟩ := e.es_b (Signals.unmasked_of_oe (by simp) hom)
      exact ⟨_, r, exec_of_operable ho, e.delivers r (by simp), fun h => Bool.noConfusion h, fun _ =>
        ⟨by simpa using e.raised, e.c1 false (by simp), hes, hb, hnear, fun hge => (hinf hge).trans (infinity_eq _)⟩⟩
  case underflow =>
    obtain ⟨hmasked, hunmasked⟩ := scale_underflow (cw := s.npx.cw) hfx (val_ne_zero_of_scaled hv) hcl hlo
    rw [if_neg (hz hv)] at e
    cases hum : s.npx.cw.um with
    | true =>
      obtain ⟨lost, up, r, hd, hfr, hs, hround, hlost, hup⟩ := hmasked hum
      rw [hd] at e
      refine ⟨_, r, exec_of_operable ho, e.delivers r (by simp), hfr, hs, fun _ => ⟨hround, ?_, ?_⟩,
        fun h => Bool.noConfusion h⟩
      · have := e.raised
        rw [eq_decide_of_iff hlost] at this
        simpa using this
      · rw [e.c1 up (by simp), eq_decide_of_iff hup]
    | false =>
      obtain ⟨r, hd, hfr, hs, hnear, hzero⟩ := hunmasked hum
      rw [hd] at e
      obtain ⟨hes, hb⟩ := e.es_b (Signals.unmasked_of_ue (by simp) hum)
      exact ⟨_, r, exec_of_operable ho, e.delivers r (by simp), hfr, hs, fun h => Bool.noConfusion h, fun _ =>
        ⟨by simpa using e.raised, e.c1 false (by simp), hes, hb, hnear, fun hlt => (hzero hlt).trans (zeroOf_eq _)⟩⟩

end Sys2Proof.Machine
end

section
/-! PROOFS. FPREM and FPREM1 (spec/44_arithmetic.md R286, R287): the remainder is exact, complete or not. -/

namespace Sys2Proof.Machine

/-! The remainder is delivered exactly. -/

/-- v is delivered with its exponent adjusted: it is a tiny number, and underflow is unmasked (R165). -/
def underflows (cw : ControlWord) (v : ℚ) : Bool := !cw.um && decide (v ≠ 0 ∧ |v| < (2 : ℚ) ^ (-16382 : ℤ))

/-- A remainder M * 2^e of at most 64 significant bits, in the extended range. -/
structure Remainder (M : Nat) (e : ℤ) : Prop where
  narrow : ∃ m j : Nat, M = m * 2 ^ j ∧ m < 2 ^ 64
  le : -16445 ≤ e
  lt : (M : ℚ) * 2 ^ e < 2 ^ (16384 : ℤ)

namespace Remainder

variable {M : Nat} {e : ℤ} (h : Remainder M e)
include h

omit h in
theorem exactly (h0 : M ≠ 0) : Exactly { m := M, e := e, sticky := false } 64 ((M : ℚ) * 2 ^ e) :=
  ⟨rfl, h0, by norm_num, le_rfl, fun h => by cases h⟩

theorem rounding (h0 : M ≠ 0) (rc : BitVec 2) (neg : Bool) :
    IsRounding rc (sgn neg * ((M : ℚ) * 2 ^ e)) ((⟨M, e, false⟩ : Mag).log2 - (64 : Nat) + 1)
      (sgn neg * ((M : ℚ) * 2 ^ e)) := by
  obtain ⟨m, j, hm, hlt⟩ := h.narrow
  exact isRounding_of_narrow (v := ⟨M, e, false⟩) rfl rfl h0 hm hlt rc neg

/-- A remainder is a multiple of the smallest denormal. -/
theorem isRounding_smallest (rc : BitVec 2) (neg : Bool) :
    IsRounding rc (sgn neg * ((M : ℚ) * 2 ^ e)) (-16445) (sgn neg * ((M : ℚ) * 2 ^ e)) := by
  refine isRounding_self rc ⟨signedInt neg (M * 2 ^ (e + 16445).toNat), ?_⟩
  have := h.le
  rw [signedInt_cast, mul_assoc (sgn neg)]
  congr 1
  rw [Nat.cast_mul, Nat.cast_pow, Nat.cast_ofNat, mul_assoc, ← zpow_natCast, Int.toNat_of_nonneg (by omega), ← zpow_add₀ two_ne_zero]
  congr 2
  ring

theorem delivered (cw : ControlWord) (neg c1 : Bool) {v : ℚ} (hv : v = sgn neg * ((M : ℚ) * 2 ^ e)) :
    ∃ x, deliverRemainder cw neg M e c1 =
        { signals := { ue := underflows cw v }, val := some x, c1 := .set c1 } ∧ finite x = true ∧
      val x = (if underflows cw v then v * (2 : ℚ) ^ (24576 : ℤ) else v) ∧ signOf x = neg := by
  unfold deliverRemainder
  by_cases h0 : M = 0
  · obtain ⟨-, hs, hval⟩ := zeroOf_spec neg
    have hv0 : v = 0 := by rw [hv, h0]; simp
    have hu : underflows cw v = false := by simp [underflows, hv0]
    rw [if_pos h0, hu]
    exact ⟨_, rfl, finite_zeroOf neg, by rw [hval, hv0]; rfl, hs⟩
  · rw [if_neg h0]
    have hm := exactly (e := e) h0
    have hr := h.rounding h0 cw.rc neg
    have hv0 : v ≠ 0 := by
      rw [hv]
      exact fun hz => hm.pos.ne' (sgn_mul_inj.1 (hz.trans (mul_zero _).symm))
    have habs : |v| = (M : ℚ) * 2 ^ e := by rw [hv, abs_sgn_mul, abs_of_pos hm.pos]
    rcases lt_or_ge ((M : ℚ) * 2 ^ e) ((2 : ℚ) ^ (-16382 : ℤ)) with hlo | hlo
    · cases hum : cw.um with
      | true =>
        have hu : underflows cw v = false := by rw [underflows, hum]; rfl
        obtain ⟨lost, up, x, hd, hlost, -, hf, hs, hround⟩ :=
          deliver_underflow_masked (cw := cw) hm hr (by rwa [abs_sgn_mul, abs_of_pos hm.pos]) hum
        rw [Rat.cast_id] at hlost hround
        rw [show (-16381 - (64 : Nat) : ℤ) = -16445 by norm_num] at hround
        have hval := hround.unique (h.isRounding_smallest cw.rc neg)
        have hlost' : lost = false := Bool.eq_false_iff.2 fun hc => hlost.1 hc hval
        rw [hd, hlost', hu]
        exact ⟨x, rfl, hf, hval.trans hv.symm, hs⟩
      | false =>
        have hu : underflows cw v = true := by
          rw [underflows, hum, habs, decide_eq_true ⟨hv0, hlo⟩]
          rfl
        obtain ⟨x, hd, hx, -⟩ := deliver_exact_underflow (cw := cw) hm hr hlo hum
        have hge : (2 : ℚ) ^ (-16382 - 24576 : ℤ) ≤ (M : ℚ) * 2 ^ e := by
          have h1 : (1 : ℚ) ≤ M := by exact_mod_cast Nat.one_le_iff_ne_zero.2 h0
          have hle := h.le
          calc (2 : ℚ) ^ (-16382 - 24576 : ℤ) ≤ 2 ^ e := two_zpow_le_two_zpow.2 (by omega)
            _ ≤ M * 2 ^ e := le_mul_of_one_le_left (zpow_pos two_pos _).le h1
        obtain ⟨hc, hs, hval⟩ := hx hge
        rw [← hv, Rat.cast_id] at hval
        rw [hd, hu]
        exact ⟨x, rfl, finite_of_normal hc, hval, hs⟩
    · have hu : underflows cw v = false := by
        rw [underflows, habs, decide_eq_false fun h => not_lt.2 hlo h.2, Bool.and_false]
      obtain ⟨x, hd, hc, hs, hval⟩ := deliver_exact_normal (cw := cw) hm hr hlo h.lt
      rw [← hv, Rat.cast_id] at hval
      rw [hd, hu]
      exact ⟨x, rfl, finite_of_normal hc, hval, hs⟩

end Remainder

/-! The quotient. -/

/-- A quotient of naturals: its whole part, and the rest against half the divisor. -/
theorem unitsIn_div (n : Nat) {d : Nat} (hd : 0 < d) :
    UnitsIn ((n : ℚ) / d) 0 (n / d) (n % d != 0) (compare (2 * (n % d)) d) := by
  have hdq : (0 : ℚ) < d := by exact_mod_cast hd
  have hdm : (n : ℚ) = d * (n / d : Nat) + (n % d : Nat) := by exact_mod_cast (Nat.div_add_mod n d).symm
  have hr : ((n % d : Nat) : ℚ) < d := by exact_mod_cast Nat.mod_lt n hd
  have hr0 : (0 : ℚ) ≤ (n % d : Nat) := Nat.cast_nonneg _
  have hne : (n : ℚ) / d = (n / d : Nat) ↔ n % d = 0 := by
    rw [div_eq_iff hdq.ne', hdm, ← Nat.cast_eq_zero (R := ℚ)]
    constructor <;> intro h <;> linarith
  have hdiv : (n : ℚ) / d = (n / d : Nat) + (n % d : Nat) / d := by
    rw [eq_comm, ← mul_left_inj' hdq.ne', add_mul, div_mul_cancel₀ _ hdq.ne', div_mul_cancel₀ _ hdq.ne']
    linarith
  refine ⟨?_, ?_, ?_, ?_⟩
  · rw [zpow_zero, mul_one, le_div_iff₀ hdq]; linarith
  · rw [zpow_zero, mul_one, div_lt_iff₀ hdq]; linarith
  · rw [zpow_zero, mul_one, bne_iff_ne, Ne, Ne, hne]
  · have h2 : 2 * ((n : ℚ) / d - (n / d : Nat) * 2 ^ (0 : ℤ)) = (2 * (n % d) : Nat) / d := by
      rw [zpow_zero, mul_one, hdiv]
      push_cast
      ring
    rw [h2, zpow_zero]
    rcases lt_trichotomy (2 * (n % d)) d with h | h | h
    · rw [compare_lt_iff_lt.2 h, compare_lt_iff_lt.2]
      rw [div_lt_one hdq]
      exact_mod_cast h
    · rw [compare_eq_iff_eq.2 h, compare_eq_iff_eq.2]
      rw [h, div_self hdq.ne']
    · rw [compare_gt_iff_gt.2 h, compare_gt_iff_gt.2]
      show (1 : ℚ) < _
      rw [one_lt_div hdq]
      exact_mod_cast h

/-- Both magnitudes as multiples of one power of two: their quotient, and the remainder of any quotient. -/
structure Shared (x : Ext) (v w : ℚ) (neg : Bool) (mx my : Nat) (e : ℤ) : Prop where
  left : v = sgn (signOf x) * ((mx : ℚ) * 2 ^ e)
  right : w = sgn neg * ((my : ℚ) * 2 ^ e)
  pos : 0 < my

namespace Shared

variable {x : Ext} {v w : ℚ} {neg : Bool} {mx my : Nat} {e : ℤ} (h : Shared x v w neg mx my e)
include h

theorem div_eq : v / w = sgn (signOf x != neg) * ((mx : ℚ) / my) := by
  have hp : (2 : ℚ) ^ e ≠ 0 := zpow_ne_zero _ two_ne_zero
  have hmy : (my : ℚ) ≠ 0 := by exact_mod_cast h.pos.ne'
  rw [h.left, h.right, sgn_bne]
  cases signOf x <;> cases neg <;> simp [neg_div, div_neg, mul_div_mul_right _ _ hp]

/-- The quotient that a statement speaks of. -/
theorem quotient {rc : BitVec 2} {q : ℤ} (hq : IsRounding rc (v / w) 0 (q : ℚ)) :
    q = signedInt (signOf x != neg)
      (rounded rc (signOf x != neg) (mx / my) (mx % my != 0) (compare (2 * (mx % my)) my)) := by
  rw [h.div_eq] at hq
  have := hq.unique ((unitsIn_div mx h.pos).isRounding rc (signOf x != neg))
  rw [zpow_zero, mul_one, ← signedInt_cast] at this
  exact_mod_cast this

/-- What a quotient leaves. -/
theorem sub_eq (Q : Nat) :
    v - (signedInt (signOf x != neg) Q : ℤ) * w = sgn (signOf x) * (((mx : ℚ) - Q * my) * 2 ^ e) := by
  rw [signedInt_cast, sgn_bne, h.left, h.right]
  cases signOf x <;> cases neg <;> simp <;> ring

end Shared

/-! The common power of two (R286). -/

/-- The smaller of the two exponents. -/
def commonExp (x y : Ext) : ℤ := min (trueExp x) (trueExp y)

/-- A pattern's significand as a multiple of a smaller power of two. -/
def shiftedSig (x : Ext) (e : ℤ) : Nat := sig x <<< (trueExp x - e).toNat

theorem shiftedSig_val {x : Ext} {e : ℤ} (h : e ≤ trueExp x) : val x = sgn (signOf x) * ((shiftedSig x e : ℚ) * 2 ^ e) := by
  rw [val_eq, shiftedSig, Nat.shiftLeft_eq, Nat.cast_mul, Nat.cast_pow, Nat.cast_ofNat, mul_assoc (sig x : ℚ),
    ← zpow_natCast, ← zpow_add₀ two_ne_zero, Int.toNat_of_nonneg (by omega), sub_add_cancel]

theorem shiftedSig_pos {y : Ext} (hy : val y ≠ 0) (e : ℤ) : 0 < shiftedSig y e := by
  rw [shiftedSig, Nat.shiftLeft_eq]
  exact Nat.mul_pos (Nat.pos_of_ne_zero fun h => hy ((val_eq_zero_iff y).2 h)) (by positivity)

theorem shared_of_val {x y : Ext} (hy : val y ≠ 0) :
    Shared x (val x) (val y) (signOf y) (shiftedSig x (commonExp x y)) (shiftedSig y (commonExp x y)) (commonExp x y) :=
  ⟨shiftedSig_val (min_le_left _ _), shiftedSig_val (min_le_right _ _), shiftedSig_pos hy _⟩

theorem shiftedSig_self (x : Ext) : shiftedSig x (trueExp x) = sig x := by simp [shiftedSig]

/-- A remainder of the shared magnitudes fits a significand. -/
theorem shared_mod_lt {x y : Ext} (hy : val y ≠ 0) :
    shiftedSig x (commonExp x y) % shiftedSig y (commonExp x y) < 2 ^ 64 := by
  rcases min_choice (trueExp x) (trueExp y) with h | h
  · refine (Nat.mod_le _ _).trans_lt ?_
    rw [commonExp, h, shiftedSig_self]
    exact sig_lt x
  · refine (Nat.mod_lt _ (shiftedSig_pos hy _)).trans ?_
    rw [commonExp, h, shiftedSig_self]
    exact sig_lt y

theorem commonExp_ge (x y : Ext) : -16445 ≤ commonExp x y := le_min (le_trueExp x) (le_trueExp y)

/-- What is not above the dividend is in range. -/
theorem lt_of_le_shiftedSig {x : Ext} (hx : finite x = true) {e : ℤ} (he : e ≤ trueExp x) {M : Nat}
    (hM : M ≤ shiftedSig x e) : (M : ℚ) * 2 ^ e < 2 ^ (16384 : ℤ) := by
  have hv : |val x| = (shiftedSig x e : ℚ) * 2 ^ e := by
    rw [shiftedSig_val he, abs_sgn_mul, abs_of_nonneg (by positivity)]
  refine lt_of_le_of_lt ?_ (abs_val_lt hx)
  rw [hv]
  exact mul_le_mul_of_nonneg_right (by exact_mod_cast hM) (zpow_pos two_pos _).le

/-! A complete reduction (R286, R287). -/

/-- FPREM truncates, FPREM1 rounds to nearest even. -/
def premRounding (nearest : Bool) : BitVec 2 := if nearest then 0 else 3

/-- What a complete reduction leaves: the remainder and the quotient's bits. -/
theorem premReduce_complete (cw : ControlWord) (nearest : Bool) {x y : Ext} (hx : finite x = true) (hx0 : val x ≠ 0)
    (hy : val y ≠ 0) (hd : Int.log 2 |val x| - Int.log 2 |val y| < 64) {q : ℤ}
    (hq : IsRounding (premRounding nearest) (val x / val y) 0 (q : ℚ)) :
    ∃ M neg, Remainder M (commonExp x y) ∧ val x - q * val y = sgn neg * ((M : ℚ) * 2 ^ commonExp x y) ∧
      (M = 0 → neg = signOf x) ∧
      premReduce cw nearest x y =
        { result := deliverRemainder cw neg M (commonExp x y) (q.natAbs.testBit 0), code := some (quotientCode q.natAbs) } := by
  have hsh := shared_of_val (x := x) hy
  have hd' : (magOf x).log2 - (magOf y).log2 < 64 := by
    rwa [(magOf_rep x).log_eq fun h => hx0 ((val_eq_zero_iff x).2 h), (magOf_rep y).log_eq fun h => hy ((val_eq_zero_iff y).2 h)]
      at hd
  have hQ := hsh.quotient hq
  have hlt := shared_mod_lt (x := x) hy
  have hle := Nat.mod_le (shiftedSig x (commonExp x y)) (shiftedSig y (commonExp x y))
  have hbound (M : Nat) (hM : M ≤ shiftedSig x (commonExp x y) % shiftedSig y (commonExp x y)) :
      Remainder M (commonExp x y) :=
    ⟨⟨M, 0, by simp, hM.trans_lt hlt⟩, commonExp_ge x y, lt_of_le_shiftedSig hx (min_le_left _ _) (hM.trans hle)⟩
  have hdef : premReduce cw nearest x y =
      if nearest && (decide (shiftedSig y (commonExp x y) < 2 * (shiftedSig x (commonExp x y) % shiftedSig y (commonExp x y))) ||
          (2 * (shiftedSig x (commonExp x y) % shiftedSig y (commonExp x y)) == shiftedSig y (commonExp x y) &&
            shiftedSig x (commonExp x y) / shiftedSig y (commonExp x y) % 2 == 1)) then
        { result := deliverRemainder cw (!signOf x)
            (shiftedSig y (commonExp x y) - shiftedSig x (commonExp x y) % shiftedSig y (commonExp x y)) (commonExp x y)
            ((shiftedSig x (commonExp x y) / shiftedSig y (commonExp x y) + 1).testBit 0),
          code := some (quotientCode (shiftedSig x (commonExp x y) / shiftedSig y (commonExp x y) + 1)) }
      else
        { result := deliverRemainder cw (signOf x) (shiftedSig x (commonExp x y) % shiftedSig y (commonExp x y)) (commonExp x y)
            ((shiftedSig x (commonExp x y) / shiftedSig y (commonExp x y)).testBit 0),
          code := some (quotientCode (shiftedSig x (commonExp x y) / shiftedSig y (commonExp x y))) } := by
    unfold premReduce
    exact if_pos hd'
  rw [hdef]
  have hsub := hsh.sub_eq
  have hpos := hsh.pos
  clear hsh hdef hd' hd hq hle
  generalize shiftedSig x (commonExp x y) = mx at *
  generalize shiftedSig y (commonExp x y) = my at *
  have hdm : (mx : ℚ) = my * (mx / my : Nat) + (mx % my : Nat) := by exact_mod_cast (Nat.div_add_mod mx my).symm
  have hup : roundsUp (premRounding nearest) (signOf x != signOf y) (mx / my) (mx % my != 0) (compare (2 * (mx % my)) my) =
      (nearest && (decide (my < 2 * (mx % my)) || (2 * (mx % my) == my && mx / my % 2 == 1))) := by
    cases nearest with
    | false => rfl
    | true =>
      show (compare (2 * (mx % my)) my == .gt || (compare (2 * (mx % my)) my == .eq && mx / my % 2 == 1)) = _
      rcases lt_trichotomy (2 * (mx % my)) my with h | h | h
      · rw [compare_lt_iff_lt.2 h, decide_eq_false (by omega), beq_false_of_ne h.ne]
        rfl
      · rw [compare_eq_iff_eq.2 h, decide_eq_false (by omega), beq_iff_eq.2 h]
        rfl
      · rw [compare_gt_iff_gt.2 h, decide_eq_true h]
        rfl
  rw [rounded, hup] at hQ
  split
  case isTrue hc =>
    rw [if_pos hc] at hQ
    have hge : my - mx % my ≤ mx % my := by
      simp only [Bool.and_eq_true, Bool.or_eq_true, decide_eq_true_eq, beq_iff_eq] at hc
      omega
    have hmod := Nat.mod_lt mx hpos
    refine ⟨_, _, hbound _ hge, ?_, fun h => by omega, by rw [hQ, natAbs_signedInt]⟩
    rw [hQ, hsub, Nat.cast_sub hmod.le]
    push_cast
    rw [show (mx : ℚ) - ((mx / my : Nat) + 1) * my = -(my - (mx % my : Nat)) by rw [hdm]; ring]
    cases signOf x <;> simp <;> ring
  case isFalse hc =>
    rw [if_neg hc] at hQ
    refine ⟨_, _, hbound _ le_rfl, ?_, fun _ => rfl, by rw [hQ, natAbs_signedInt]⟩
    rw [hQ, hsub, show (mx : ℚ) - (mx / my : Nat) * my = (mx % my : Nat) by rw [hdm]; ring]

/-! An incomplete reduction. -/

/-- The step N of an incomplete reduction of exponent difference d (log 19). -/
def premStep (d : ℤ) : Nat := 32 + (Config.premStepOffset d.toNat).toNat

theorem premStep_bounds (d : ℤ) : 32 ≤ premStep d ∧ premStep d ≤ 63 := by
  have := (Config.premStepOffset d.toNat).isLt
  unfold premStep
  omega

/-- A remainder by a shifted divisor still has at most 64 significant bits. -/
theorem narrow_mod {a b : Nat} (ha : a < 2 ^ 64) (hb0 : 0 < b) (hb : b < 2 ^ 64) (k f : Nat) :
    ∃ m j : Nat, a * 2 ^ k % (b * 2 ^ f) = m * 2 ^ j ∧ m < 2 ^ 64 := by
  rcases le_total f k with h | h
  · refine ⟨a * 2 ^ (k - f) % b, f, ?_, (Nat.mod_lt _ hb0).trans hb⟩
    rw [← Nat.mul_mod_mul_right, mul_assoc, ← pow_add, Nat.sub_add_cancel h]
  · refine ⟨a % (b * 2 ^ (f - k)), k, ?_, (Nat.mod_le _ _).trans_lt ha⟩
    rw [← Nat.mul_mod_mul_right, mul_assoc, ← pow_add, Nat.sub_add_cancel h]

theorem premReduce_incomplete (cw : ControlWord) (nearest : Bool) {x y : Ext} (hx : finite x = true) (hx0 : val x ≠ 0)
    (hy : val y ≠ 0) {d : ℤ} (hd : d = Int.log 2 |val x| - Int.log 2 |val y|) (h64 : 64 ≤ d) :
    ∃ (q : ℤ) (M : Nat) (e : ℤ), IsRounding 3 (val x / (val y * (2 : ℚ) ^ (d - premStep d))) 0 (q : ℚ) ∧ Remainder M e ∧
      val x - q * (val y * (2 : ℚ) ^ (d - premStep d)) = sgn (signOf x) * ((M : ℚ) * 2 ^ e) ∧
      (M : ℚ) * 2 ^ e * 2 ^ 31 < |val x| ∧
      premReduce cw nearest x y =
        { result := deliverRemainder cw (signOf x) M e false, code := some { c3 := false, c2 := true, c0 := false } } := by
  have hsx : sig x ≠ 0 := fun h => hx0 ((val_eq_zero_iff x).2 h)
  have hsy : sig y ≠ 0 := fun h => hy ((val_eq_zero_iff y).2 h)
  rw [(magOf_rep x).log_eq hsx, (magOf_rep y).log_eq hsy] at hd
  obtain ⟨hn1, hn2⟩ := premStep_bounds d
  have hlx : (magOf x).log2 = trueExp x + (sig x).log2 := rfl
  have hly : (magOf y).log2 = trueExp y + (sig y).log2 := rfl
  have hsx64 : (sig x).log2 < 64 := (Nat.log2_lt hsx).2 (sig_lt x)
  have hte : trueExp y ≤ trueExp x := by omega
  have hce : commonExp x y = trueExp y := min_eq_right hte
  have hf : ((d.toNat - premStep d : Nat) : ℤ) = d - premStep d := by omega
  have hD : shiftedSig y (trueExp y) <<< (d.toNat - premStep d) = sig y * 2 ^ (d.toNat - premStep d) := by
    rw [shiftedSig_self, Nat.shiftLeft_eq]
  have hsh : Shared x (val x) (val y * (2 : ℚ) ^ (d - premStep d)) (signOf y) (shiftedSig x (trueExp y))
      (sig y * 2 ^ (d.toNat - premStep d)) (trueExp y) := by
    refine ⟨shiftedSig_val hte, ?_, Nat.mul_pos (Nat.pos_of_ne_zero hsy) (by positivity)⟩
    rw [val_eq y, ← hf, zpow_natCast, Nat.cast_mul, Nat.cast_pow]
    push_cast
    ring
  have hround := (unitsIn_div (shiftedSig x (trueExp y)) hsh.pos).isRounding 3 (signOf x != signOf y)
  have hsub := hsh.sub_eq (shiftedSig x (trueExp y) / (sig y * 2 ^ (d.toNat - premStep d)))
  rw [zpow_zero, mul_one, ← hsh.div_eq, rounded, if_neg (by exact Bool.false_ne_true), ← signedInt_cast] at hround
  have hmod : (shiftedSig x (trueExp y) : ℚ) -
      (shiftedSig x (trueExp y) / (sig y * 2 ^ (d.toNat - premStep d)) : Nat) * (sig y * 2 ^ (d.toNat - premStep d) : Nat) =
      (shiftedSig x (trueExp y) % (sig y * 2 ^ (d.toNat - premStep d)) : Nat) := by
    have : (shiftedSig x (trueExp y) : ℚ) = _ := congrArg Nat.cast
      (Nat.div_add_mod (shiftedSig x (trueExp y)) (sig y * 2 ^ (d.toNat - premStep d))).symm
    rw [Nat.cast_add, Nat.cast_mul] at this
    linarith
  rw [hmod] at hsub
  refine ⟨_, _, trueExp y, hround, ⟨?_, le_trueExp y, ?_⟩, hsub, ?_, ?_⟩
  · rw [shiftedSig, Nat.shiftLeft_eq]
    exact narrow_mod (sig_lt x) (Nat.pos_of_ne_zero hsy) (sig_lt y) _ _
  · exact lt_of_le_shiftedSig hx hte (Nat.mod_le _ _)
  · have hMlt : ((shiftedSig x (trueExp y) % (sig y * 2 ^ (d.toNat - premStep d)) : Nat) : ℚ) <
        sig y * 2 ^ (d - premStep d) := by
      have := Nat.mod_lt (shiftedSig x (trueExp y)) hsh.pos
      rw [← hf, zpow_natCast]
      exact_mod_cast this
    have hp (k : ℤ) : (0 : ℚ) < 2 ^ k := zpow_pos two_pos k
    have hyb := ((magOf_rep y).log2_bounds hsy).2
    rw [abs_val] at hyb
    calc _ < (sig y : ℚ) * 2 ^ (d - premStep d) * 2 ^ trueExp y * 2 ^ 31 :=
          mul_lt_mul_of_pos_right (mul_lt_mul_of_pos_right hMlt (hp _)) (by positivity)
      _ = sig y * 2 ^ trueExp y * (2 ^ (d - premStep d) * 2 ^ (31 : ℤ)) := by norm_num; ring
      _ ≤ 2 ^ ((magOf y).log2 + 1) * (2 ^ (d - premStep d) * 2 ^ (31 : ℤ)) :=
          mul_le_mul_of_nonneg_right hyb.le (mul_pos (hp _) (hp _)).le
      _ = 2 ^ ((magOf y).log2 + 1 + (d - premStep d + 31)) := by
          rw [← zpow_add₀ two_ne_zero, ← zpow_add₀ two_ne_zero]
      _ ≤ 2 ^ (magOf x).log2 := two_zpow_le_two_zpow.2 (by omega)
      _ ≤ |val x| := ((magOf_rep x).log2_bounds hsx).1
  · have hmin : min (trueExp x) (trueExp y) = trueExp y := min_eq_right hte
    unfold premReduce
    rw [← hD]
    dsimp only
    rw [if_neg (by omega), ← hd, hmin]
    rfl

/-! The instructions. -/

/-- FPREM1 is the one that rounds its quotient to nearest. -/
def isNearest : Instr → Bool
  | .fprem1 _ => true
  | _ => false

theorem premOutcome_number {cw : ControlWord} {nearest : Bool} {x y : Ext} (hx : usable cw.dm x = true)
    (hy : usable cw.dm y = true) (hx0 : val x ≠ 0) (hy0 : val y ≠ 0) :
    premOutcome cw nearest x y = { premReduce cw nearest x y with
      result := (premReduce cw nearest x y).result.withDenormal (classOf x == .denormal || classOf y == .denormal) } := by
  obtain ⟨hfx, hdx⟩ := usable_iff.1 hx
  obtain ⟨hfy, hdy⟩ := usable_iff.1 hy
  have hxo := (ordinary_iff x).1 (ordinary_of_finite hfx)
  have hyo := (ordinary_iff y).1 (ordinary_of_finite hfy)
  have hxz : classOf x ≠ .zero := fun h => hx0 ((classOf_zero_iff_val hfx).1 h)
  have hyz : classOf y ≠ .zero := fun h => hy0 ((classOf_zero_iff_val hfy).1 h)
  have hnan : (isNaN x || isNaN y) = false := by
    rw [Bool.or_eq_false_iff, ← Bool.not_eq_true, ← Bool.not_eq_true, isNaN_iff, isNaN_iff]
    tauto
  have hden : ¬((classOf x = .denormal ∨ classOf y = .denormal) ∧ cw.dm = false) := by
    rintro ⟨h | h, hdm⟩
    · exact Bool.false_ne_true (hdm.symm.trans (hdx h))
    · exact Bool.false_ne_true (hdm.symm.trans (hdy h))
  unfold premOutcome
  rw [if_neg (not_or.2 ⟨hxo.1, hyo.1⟩), hnan, if_neg Bool.false_ne_true,
    if_neg (not_or.2 ⟨classOf_ne_infinity hfx, hyz⟩), if_neg hden]
  simp only [classOf_ne_infinity hfy, hxz, or_self, if_false]

/-- How FPREM and FPREM1 of two nonzero numbers end. -/
theorem ran_prem {p : List PrefixByte} {s : State} {i : Instr} (hi : i = .fprem p ∨ i = .fprem1 p)
    (h0 : s.npx.empty 0 = false) (h1 : s.npx.empty 1 = false) :
    Ends s.npx (s.ran i).npx (Delivered s.npx (s.ran i).npx 0 0)
        (premOutcome s.npx.cw (isNearest i) (s.npx.st 0) (s.npx.st 1)).result ∧
      ∀ c, (premOutcome s.npx.cw (isNearest i) (s.npx.st 0) (s.npx.st 1)).code = some c →
        (s.ran i).npx.sw.c3 = c.c3 ∧ (s.ran i).npx.sw.c2 = c.c2 ∧ (s.ran i).npx.sw.c0 = c.c0 := by
  have hv : (s.npx.empty 0 || s.npx.empty 1) = false := by rw [h0, h1]; rfl
  have he : (⟨[.reg 0, .reg 1], 0, 0⟩ : ResultForm).hasEmpty s i = false := by
    show (s.npx.empty 0 || (s.npx.empty 1 || false)) = false
    rw [Bool.or_false, hv]
  rcases hi with rfl | rfl
  · refine ⟨ran_computed (i := .fprem p) rfl he rfl, fun c hc => ?_⟩
    have h := ran_computes_code (s := s) (i := .fprem p) (.inl rfl) rfl
    rw [computedCode, hv, if_neg Bool.false_ne_true, show (premOutcome s.npx.cw false _ _).code = some c from hc] at h
    exact h
  · refine ⟨ran_computed (i := .fprem1 p) rfl he rfl, fun c hc => ?_⟩
    have h := ran_computes_code (s := s) (i := .fprem1 p) (.inl rfl) rfl
    rw [computedCode, hv, if_neg Bool.false_ne_true, show (premOutcome s.npx.cw true _ _).code = some c from hc] at h
    exact h

theorem unmasked_of_underflows {cw : ControlWord} {v : ℚ} (h : underflows cw v = true) (g : Signals) (hg : g.ue = true) :
    g.unmasked cw = true := by
  refine Signals.unmasked_of_ue hg ?_
  simp only [underflows, Bool.and_eq_true, Bool.not_eq_true'] at h
  exact h.1

/-- Settles O46: `premReduce_complete`, and the remainder delivered exactly. -/
theorem completeRemainderIsExact : Obligations.CompleteRemainderIsExact := by
  unfold Obligations.CompleteRemainderIsExact
  intro p s i rc q hi ho h0 h1 hx hy hx0 hy0 hd hq
  have hi' : i = .fprem p ∨ i = .fprem1 p := hi.imp And.left And.left
  have hrc : rc = premRounding (isNearest i) := by rcases hi with ⟨rfl, rfl⟩ | ⟨rfl, rfl⟩ <;> rfl
  obtain ⟨e, hcode⟩ := ran_prem hi' h0 h1
  obtain ⟨M, neg, hM, hrem, hzero, hred⟩ :=
    premReduce_complete s.npx.cw (isNearest i) (usable_iff.1 hx).1 hx0 hy0 hd (hrc ▸ hq)
  obtain ⟨r, hdel, hf, hval, hs⟩ := hM.delivered s.npx.cw neg (q.natAbs.testBit 0) hrem
  rw [premOutcome_number hx hy hx0 hy0, hred] at e hcode
  rw [hdel] at e
  obtain ⟨h3, h2, hc0⟩ := hcode _ rfl
  refine ⟨_, r, exec_of_operable ho, e.delivers r (by simp), hf, hval, fun hr0 => ?_, h2, hc0, h3, e.c1 _ (by simp),
    fun hu => e.es_b (unmasked_of_underflows hu _ (by rw [Result.withDenormal_signals]; exact hu)), ?_⟩
  · rw [hs]
    refine hzero ?_
    have hM0 := sgn_mul_inj.1 ((hrem.symm.trans hr0).trans (mul_zero (sgn neg)).symm)
    exact_mod_cast (mul_eq_zero.1 hM0).resolve_right (zpow_ne_zero _ two_ne_zero)
  · have := e.raised
    simp only [Result.withDenormal_signals, Result.withDenormal_sf, Bool.false_or] at this
    exact this

/-- Settles O47: `premReduce_incomplete`. -/
theorem incompleteRemainderReduces : Obligations.IncompleteRemainderReduces := by
  unfold Obligations.IncompleteRemainderReduces
  intro p s i d hi ho h0 h1 hx hy hx0 hy0 hd h64
  obtain ⟨e, hcode⟩ := ran_prem hi h0 h1
  obtain ⟨hn1, hn2⟩ := premStep_bounds d
  obtain ⟨q, M, k, hq, hM, hrem, hsmall, hred⟩ :=
    premReduce_incomplete s.npx.cw (isNearest i) (usable_iff.1 hx).1 hx0 hy0 hd h64
  obtain ⟨r, hdel, hf, hval, hs⟩ := hM.delivered s.npx.cw (signOf (s.npx.st 0)) false hrem
  rw [premOutcome_number hx hy hx0 hy0, hred] at e hcode
  rw [hdel] at e
  obtain ⟨h3, h2, hc0⟩ := hcode _ rfl
  refine ⟨premStep d, q, by omega, by omega, hq, ?_, _, r, exec_of_operable ho, e.delivers r (by simp), hf, hval, hs, h3, h2,
    e.c1 _ (by simp), hc0, fun hu => e.es_b (unmasked_of_underflows hu _ (by rw [Result.withDenormal_signals]; exact hu)), ?_⟩
  · rw [hrem, abs_sgn_mul, abs_of_nonneg (by positivity)]
    exact hsmall
  · have := e.raised
    simp only [Result.withDenormal_signals, Result.withDenormal_sf, Bool.false_or] at this
    exact this

end Sys2Proof.Machine
end

section
/-! PROOFS. The rows for zeros, infinities, negative numbers and 1.0 (spec/44_arithmetic.md R284 to R289,
spec/45_transcendental.md R301 to R308). -/

namespace Sys2Proof.Machine

/-! A row as a result. -/

/-- The result of a row: an invalid operation comes before the test for a denormal, the other rows after it (R172). -/
def SpecialRow.toResult {α : Type} (r : SpecialRow α) (cw : ControlWord) (den : Bool) : Result α :=
  match r with
  | .invalid v => .invalid cw v
  | .zeroDivide v => .denormal cw den (.zeroDivide cw v)
  | .value v => .denormal cw den (.ok v)

section

variable {α : Type} (r : SpecialRow α) (cw : ControlWord) (den : Bool)

theorem SpecialRow.toResult_signals : (r.toResult cw den).signals = r.signals cw den := by
  cases r with
  | invalid v => rfl
  | zeroDivide v | value v => cases den <;> cases hdm : cw.dm <;>
      simp [toResult, signals, Result.denormal, Result.withDenormal, Result.denormalAbort, Result.zeroDivide, Result.ok, hdm]

theorem SpecialRow.toResult_sf : (r.toResult cw den).sf = false := by
  cases r with
  | invalid v => rfl
  | zeroDivide v | value v => cases den <;> cases hdm : cw.dm <;> simp [toResult, Result.denormal, hdm] <;> rfl

theorem SpecialRow.toResult_val : (r.toResult cw den).val = if r.delivers cw den then some r.result else none := by
  cases r with
  | invalid v => rfl
  | zeroDivide v | value v =>
    cases den <;> cases hdm : cw.dm <;> simp [toResult, delivers, result, Result.denormal, hdm] <;> rfl

theorem SpecialRow.toResult_c1 : (r.toResult cw den).c1 = .set false := by
  cases r with
  | invalid v => rfl
  | zeroDivide v | value v => cases den <;> cases hdm : cw.dm <;> simp [toResult, Result.denormal, hdm] <;> rfl

end

/-- How an instruction ends that follows a row; `keep` says that it leaves C1 where it ends without a result. -/
theorem Ends.special_row {α : Type} {x y : Npx} {done : α → Prop} {cw : ControlWord} {den keep : Bool} {r : SpecialRow α}
    (e : Ends x y done (if keep then (r.toResult cw den).keepC1OnAbort else r.toResult cw den)) :
    Raised x y (r.signals cw den) ∧ (r.delivers cw den = true → done r.result ∧ y.sw.c1 = false) ∧
      (r.delivers cw den = false → OnlyAt x y [] ∧ y.sw.c1 = (keep && x.sw.c1)) := by
  have hval := r.toResult_val cw den
  cases keep with
  | false =>
    rw [if_neg Bool.false_ne_true] at e
    refine ⟨by simpa only [r.toResult_signals, r.toResult_sf] using e.raised, fun hd => ?_, fun hd => ?_⟩
    · exact ⟨e.delivers _ (by rw [hval, if_pos hd]), e.c1 _ (r.toResult_c1 cw den)⟩
    · exact ⟨e.aborts (by rw [hval, if_neg (ne_true_of_eq_false hd)]), e.c1 _ (r.toResult_c1 cw den)⟩
  | true =>
    rw [if_pos rfl] at e
    refine ⟨?_, fun hd => ?_, fun hd => ?_⟩
    · simpa only [Result.keepC1OnAbort_signals, Result.keepC1OnAbort_sf, r.toResult_signals, r.toResult_sf] using e.raised
    · rw [if_pos hd] at hval
      refine ⟨e.delivers _ (by rw [Result.keepC1OnAbort_val, hval]), e.c1 _ ?_⟩
      rw [Result.keepC1OnAbort_c1, hval, r.toResult_c1]
      rfl
    · rw [if_neg (ne_true_of_eq_false hd)] at hval
      refine ⟨e.aborts (by rw [Result.keepC1OnAbort_val, hval]), ?_⟩
      rw [Bool.true_and]
      refine e.c1_keep ?_
      rw [Result.keepC1OnAbort_c1, hval]
      rfl

/-! The instructions of one operand. -/

theorem one_literal : (0x3FFF8000000000000000 : Ext) = one := rfl

theorem minus_one_literal : (0xBFFF8000000000000000 : Ext) = negate one := by decide

section

variable {cw : ControlWord} {x y : Ext} {r : SpecialRow Ext} {p : List PrefixByte}

theorem sqrtResult_special (hx : ordinary x = true) (h : specialRow (.fsqrt p) x y = some r) :
    sqrtResult cw x = r.toResult cw (classOf x == .denormal) := by
  rw [sqrtResult, Result.oneOperand_of_ordinary hx]
  simp only [specialRow, beq_iff_eq] at h
  split_ifs at h with hz hs hi <;> cases h
  · rw [if_pos hz, hz]; rfl
  · rw [if_neg hz, if_pos hs]; rfl
  · rw [if_neg hz, if_neg hs, if_pos hi, hi]; rfl

theorem rndintResult_special (hx : ordinary x = true) (h : specialRow (.frndint p) x y = some r) :
    rndintResult cw x = r.toResult cw (classOf x == .denormal) := by
  rw [rndintResult, Result.oneOperand_of_ordinary hx]
  simp only [specialRow, Bool.or_eq_true, beq_iff_eq] at h
  split_ifs at h with hz
  cases h
  rw [if_pos hz]
  rcases hz with hz | hz <;> rw [hz] <;> rfl

theorem trigResult_special {f : TranscFn} {sign : Ext → Bool} {zero : Ext → Ext} (hx : ordinary x = true)
    (h : (if classOf x == .infinity then some (.invalid 0xFFFFC000000000000000)
      else if classOf x == .zero then some (.value (zero x)) else none) = some r) :
    trigResult cw f sign zero x = r.toResult cw (classOf x == .denormal) := by
  rw [trigResult, Result.oneOperand_of_ordinary hx]
  simp only [beq_iff_eq] at h
  split_ifs at h with hi hz <;> cases h
  · rw [if_pos hi]; rfl
  · rw [if_neg hi, if_pos hz, hz]; rfl

theorem exp2m1Result_special {n : Nat} (hx : ordinary x = true) (h : specialRow (.f2xm1 p) x y = some r) :
    exp2m1Result cw n x = r.toResult cw (classOf x == .denormal) := by
  rw [exp2m1Result, Result.oneOperand_of_ordinary hx]
  simp only [specialRow, Bool.or_eq_true, beq_iff_eq, one_literal, minus_one_literal] at h
  split_ifs at h with hz hm <;> cases h
  · by_cases hc : classOf x = .zero
    · rw [if_pos hc, hc]; rfl
    · rw [if_neg hc, if_pos (hz.resolve_left hc), hz.resolve_left hc]; rfl
  · rw [if_neg (fun hc => hz (.inl hc)), if_neg (fun hc => hz (.inr hc)), if_pos hm, hm]; rfl

/-! The instructions of two operands. -/

theorem scaleResult_special (hx : ordinary x = true) (hy : ordinary y = true) (h : specialRow (.fscale p) x y = some r) :
    scaleResult cw x y = r.toResult cw (classOf x == .denormal || classOf y == .denormal) := by
  rw [scaleResult, Result.twoOperands_of_ordinary hx hy]
  simp only [specialRow, Bool.or_eq_true, Bool.and_eq_true, beq_iff_eq, Bool.not_eq_true', and_assoc] at h
  split_ifs at h with hn hi hs hxz <;> cases h
  · rw [if_pos hn]; rfl
  · rw [if_neg hn, if_pos hi, if_pos hs, zeroOf_eq]; rfl
  · rw [if_neg hn, if_pos hi, if_neg hs, infinity_eq]; rfl
  · rw [if_neg hn, if_neg hi, if_pos hxz]; rfl

theorem premOutcome_special {nearest : Bool} (hx : ordinary x = true) (hy : ordinary y = true)
    (h : specialRow (.fprem p) x y = some r) :
    (premOutcome cw nearest x y).result =
        (r.toResult cw (classOf x == .denormal || classOf y == .denormal)).keepC1OnAbort ∧
      ∀ v, r = .value v → r.delivers cw (classOf x == .denormal || classOf y == .denormal) = true →
        (premOutcome cw nearest x y).code = some (quotientCode 0) := by
  obtain ⟨hx1, hx2, hx3⟩ := (ordinary_iff x).1 hx
  obtain ⟨hy1, hy2, hy3⟩ := (ordinary_iff y).1 hy
  have hnan : ¬(isNaN x || isNaN y) = true := by
    rw [Bool.or_eq_true, isNaN_iff, isNaN_iff]
    tauto
  simp only [specialRow, Bool.or_eq_true, beq_iff_eq] at h
  rw [premOutcome, if_neg (not_or.2 ⟨hx1, hy1⟩), if_neg hnan]
  split_ifs at h with hn hv <;> cases h
  · rw [if_pos hn]
    exact ⟨rfl, fun v hv => nomatch hv⟩
  · rw [if_neg hn]
    by_cases hd : (classOf x = .denormal ∨ classOf y = .denormal) ∧ cw.dm = false
    · have hden : (classOf x == .denormal || classOf y == .denormal) = true := by simpa using hd.1
      rw [if_pos hd, SpecialRow.toResult, Result.denormal_unmasked _ _ _ hden hd.2]
      refine ⟨rfl, fun v _ hdel => ?_⟩
      simp [SpecialRow.delivers, hden, hd.2] at hdel
    · have hden : (classOf x == .denormal || classOf y == .denormal) = true → cw.dm = true := fun h => by
        by_contra hdm
        exact hd ⟨by simpa using h, Bool.eq_false_iff.2 hdm⟩
      rw [if_neg hd, SpecialRow.toResult, Result.denormal_masked _ _ _ hden]
      simp only [hv, if_true]
      refine ⟨?_, fun _ _ _ => trivial⟩
      cases (classOf x == .denormal || classOf y == .denormal) <;> rfl

theorem atanResult_special (hx : ordinary x = true) (hy : ordinary y = true) (h : specialRow (.fpatan p) x y = some r) :
    atanResult cw x y = r.toResult cw (classOf x == .denormal || classOf y == .denormal) := by
  rw [atanResult, Result.twoOperands_of_ordinary hx hy]
  simp only [specialRow, Bool.or_eq_true, Bool.and_eq_true, beq_iff_eq, Bool.not_eq_true', beq_eq_false_iff_ne] at h
  split_ifs at h with hz
  cases h
  have hcase : atanCase y x = .zero := by
    unfold atanCase
    rcases hz with ⟨hc, hs⟩ | ⟨⟨hyi, hxi⟩, hs⟩
    · simp [hc, hs]
    · by_cases hc : classOf y = .zero <;> simp [hc, hyi, hxi, hs]
  rw [hcase, zeroOf_eq]
  rfl

/-- 1 and the exponent of a positive number. -/
theorem log2_neg_iff (hx : 0 < val x) : (magOf x).log2 < 0 ↔ val x < 1 := by
  obtain ⟨h1, h2⟩ := (magOf_rep x).log2_bounds fun h => hx.ne' ((val_eq_zero_iff x).2 h)
  rw [abs_of_pos hx] at h1 h2
  constructor
  · intro h
    exact h2.trans_le (zpow_le_one_of_nonpos₀ one_le_two (by omega))
  · intro h
    by_contra hn
    exact absurd ((one_le_zpow₀ one_le_two (not_lt.1 hn)).trans h1) (not_le.2 h)

theorem yl2xResult_special (hx : ordinary x = true) (hy : ordinary y = true) (h : specialRow (.fyl2x p) x y = some r) :
    yl2xResult cw x y = r.toResult cw (classOf x == .denormal || classOf y == .denormal) := by
  rw [yl2xResult, Result.twoOperands_of_ordinary hx hy]
  have hlog (hn : ¬(signOf x = true ∧ classOf x ≠ .zero)) (hz : classOf x ≠ .zero) (hi : classOf x ≠ .infinity) :
      (magOf x).log2 < 0 ↔ val x < 1 := by
    have hf : finite x = true := by
      simp only [ordinary, Bool.or_eq_true, beq_iff_eq] at hx
      exact hx.resolve_right hi
    have h0 : val x ≠ 0 := fun h => hz ((classOf_zero_iff_val hf).2 h)
    exact log2_neg_iff ((val_pos_iff h0).2 (Bool.eq_false_iff.2 fun hs => hn ⟨hs, hz⟩))
  simp only [specialRow, Bool.or_eq_true, Bool.and_eq_true, beq_iff_eq, Bool.not_eq_true', beq_eq_false_iff_ne,
    or_assoc, one_literal] at h
  by_cases hn : (signOf x = true ∧ classOf x ≠ .zero) ∨ (classOf x = .zero ∧ classOf y = .zero) ∨
      (classOf x = .infinity ∧ classOf y = .zero) ∨ (x = one ∧ classOf y = .infinity)
  · rw [if_pos hn] at h ⊢
    cases h
    rfl
  rw [if_neg hn] at h ⊢
  have hsx : ¬(signOf x = true ∧ classOf x ≠ .zero) := fun hc => hn (.inl hc)
  by_cases hz : classOf x = .zero
  · rw [if_pos hz] at h ⊢
    split_ifs at h with hi <;> cases h
    · rw [if_pos hi, infinity_eq]; rfl
    · rw [if_neg hi, infinity_eq]; rfl
  rw [if_neg hz] at h ⊢
  by_cases hi : classOf x = .infinity
  · rw [if_pos hi] at h ⊢
    cases h
    rw [infinity_eq]; rfl
  rw [if_neg hi] at h ⊢
  have hb : (signOf y != decide ((magOf x).log2 < 0)) = if decide (val x < 1) = true then !signOf y else signOf y := by
    have hlog := hlog hsx hz hi
    by_cases hv : val x < 1
    · rw [decide_eq_true (hlog.2 hv), decide_eq_true hv, Bool.bne_true, if_pos rfl]
    · rw [decide_eq_false fun hc => hv (hlog.1 hc), decide_eq_false hv, Bool.bne_false, if_neg Bool.false_ne_true]
  rw [hb]
  generalize (if decide (val x < 1) = true then !signOf y else signOf y) = b at h ⊢
  split_ifs at h with ho hyi hyz <;> cases h
  · rw [if_pos ho, zeroOf_eq]; rfl
  · rw [if_neg ho, if_pos hyi, infinity_eq]; rfl
  · rw [if_neg ho, if_neg hyi, if_pos hyz, zeroOf_eq]; rfl

/-- The range of FYL2XP1, in integers of the smallest unit. -/
theorem beyondLogRange_of_inLogRange (h : InLogRange x) : beyondLogRange x = false := by
  obtain ⟨h1, h2⟩ := h
  have hfix : ((fixed x).natAbs : ℚ) = |val x| * ((2 ^ 16445 : ℤ) : ℚ) := by
    rw [Nat.cast_natAbs, Int.cast_abs, fixed_eq, abs_mul,
      abs_of_pos (show (0 : ℚ) < 2 ^ (16445 : ℤ) from zpow_pos two_pos _), Int.cast_pow, Int.cast_ofNat]
    rfl
  have hsq : (2 ^ 32890 : ℤ) = 2 ^ 16445 * 2 ^ 16445 := by rw [← pow_add]
  have hpos : (0 : ℤ) < 2 ^ 16445 := pow_pos two_pos _
  unfold beyondLogRange
  rw [hsq]
  clear hsq
  generalize (2 ^ 16445 : ℤ) = u at hfix hpos
  have hu : (0 : ℚ) < u := by exact_mod_cast hpos
  have hd : ((u - ((fixed x).natAbs : ℤ) : ℤ) : ℚ) = (1 - |val x|) * u := by
    rw [Int.cast_sub, Int.cast_natCast, hfix]
    ring
  dsimp only
  rw [Bool.or_eq_false_iff, decide_eq_false_iff_not, decide_eq_false_iff_not, not_le, not_le]
  generalize u - ((fixed x).natAbs : ℤ) = d at hd
  constructor
  · have : (0 : ℚ) < d := by rw [hd]; exact mul_pos (by linarith) hu
    exact_mod_cast this
  · have : (u : ℚ) * u < 2 * (d * d) := by rw [hd]; nlinarith [mul_pos hu hu]
    exact_mod_cast this

theorem yl2xp1Result_special {n : Nat} (hx : ordinary x = true) (hy : ordinary y = true) (hr : InLogRange x)
    (h : specialRow (.fyl2xp1 p) x y = some r) :
    yl2xp1Result cw n x y = r.toResult cw (classOf x == .denormal || classOf y == .denormal) := by
  rw [yl2xp1Result, Result.twoOperands_of_ordinary hx hy]
  simp only [specialRow, Bool.and_eq_true, beq_iff_eq] at h
  split_ifs at h with hi hn hz hyi hyz <;> cases h
  all_goals rw [if_neg (not_or.2 ⟨hi, ne_true_of_eq_false (beyondLogRange_of_inLogRange hr)⟩)]
  · rw [if_pos hn]; rfl
  · rw [if_neg hn, if_pos hz, zeroOf_eq]; rfl
  · rw [if_neg hn, if_neg hz, if_pos hyi, infinity_eq]; rfl
  · rw [if_neg hn, if_neg hz, if_neg hyi, if_pos hyz, zeroOf_eq]; rfl

end

/-! Every instruction. -/

theorem ResultForm.hasClass_top (pops : Nat) (j : Idx) (s : State) (i : Instr) (c : Class) :
    (⟨[.reg 0], j, pops⟩ : ResultForm).hasClass s i c = (classOf (s.npx.st 0) == c) := Bool.or_false _

theorem ResultForm.hasClass_two (pops : Nat) (j : Idx) (s : State) (i : Instr) (c : Class) :
    (⟨[.reg 0, .reg 1], j, pops⟩ : ResultForm).hasClass s i c = (classOf (s.npx.st 0) == c || classOf (s.npx.st 1) == c) :=
  congrArg (classOf (s.npx.st 0) == c || ·) (Bool.or_false _)

theorem ordinary_of_hasClass {i : Instr} {f : ResultForm} (h : computes i = some f) {s : State}
    (hu : f.hasClass s i .unsupported = false) (hs : f.hasClass s i .snan = false) (hq : f.hasClass s i .qnan = false) :
    ∀ x ∈ f.patterns s.npx (operandBytes s i), ordinary x = true := by
  intro x hx
  rw [ordinary_iff]
  refine ⟨fun hc => ?_, fun hc => ?_, fun hc => ?_⟩
  · exact ne_true_of_eq_false hu ((hasClass_iff h (by decide) (by decide)).2 ⟨x, hx, hc⟩)
  · exact ne_true_of_eq_false hs ((hasClass_iff h (by decide) (by decide)).2 ⟨x, hx, hc⟩)
  · exact ne_true_of_eq_false hq ((hasClass_iff h (by decide) (by decide)).2 ⟨x, hx, hc⟩)

/-- A row decides what the instruction computes. -/
theorem computedValue_special {i : Instr} {f : ResultForm} (h : computes i = some f) {s : State} {r : SpecialRow Ext}
    (hu : f.hasClass s i .unsupported = false) (hs : f.hasClass s i .snan = false) (hq : f.hasClass s i .qnan = false)
    (hr : specialRow i (s.npx.st 0) (s.npx.st 1) = some r) (hl : ∀ p, i = .fyl2xp1 p → InLogRange (s.npx.st 0)) :
    computedValue i s.draws (operandBytes s i) s.npx =
      if reduces i then (r.toResult s.npx.cw (f.hasClass s i .denormal)).keepC1OnAbort
      else r.toResult s.npx.cw (f.hasClass s i .denormal) := by
  have hord := ordinary_of_hasClass h hu hs hq
  clear hu hs hq
  have hx (h0 : .reg 0 ∈ f.sources) : ordinary (s.npx.st 0) = true := hord _ (List.mem_map_of_mem h0)
  have hy (h1 : .reg 1 ∈ f.sources) : ordinary (s.npx.st 1) = true := hord _ (List.mem_map_of_mem h1)
  clear hord
  cases i with
  | fsqrt p =>
    cases h
    rw [ResultForm.hasClass_top]
    exact sqrtResult_special (hx (by simp)) hr
  | frndint p =>
    cases h
    rw [ResultForm.hasClass_top]
    exact rndintResult_special (hx (by simp)) hr
  | f2xm1 p =>
    cases h
    rw [ResultForm.hasClass_top]
    exact exp2m1Result_special (hx (by simp)) hr
  | fsin p =>
    cases h
    rw [ResultForm.hasClass_top]
    exact trigResult_special (zero := fun y => y) (hx (by simp)) hr
  | fcos p =>
    cases h
    rw [ResultForm.hasClass_top]
    exact trigResult_special (zero := fun _ => one) (hx (by simp)) hr
  | fscale p =>
    cases h
    rw [ResultForm.hasClass_two]
    exact scaleResult_special (hx (by simp)) (hy (by simp)) hr
  | fprem p =>
    cases h
    rw [ResultForm.hasClass_two]
    exact (premOutcome_special (hx (by simp)) (hy (by simp)) hr).1
  | fprem1 p =>
    cases h
    rw [ResultForm.hasClass_two]
    exact (premOutcome_special (p := p) (hx (by simp)) (hy (by simp)) hr).1
  | fpatan p =>
    cases h
    rw [ResultForm.hasClass_two]
    exact atanResult_special (hx (by simp)) (hy (by simp)) hr
  | fyl2x p =>
    cases h
    rw [ResultForm.hasClass_two]
    exact yl2xResult_special (hx (by simp)) (hy (by simp)) hr
  | fyl2xp1 p =>
    cases h
    rw [ResultForm.hasClass_two]
    exact yl2xp1Result_special (hx (by simp)) (hy (by simp)) (hl p rfl) hr
  | _ => cases hr

/-- The rows of FSIN and FCOS are for infinities and zeros. -/
theorem class_of_specialRow {i : Instr} {p : List PrefixByte} {x y : Ext} {r : SpecialRow Ext} (hi : i = .fsin p ∨ i = .fcos p)
    (h : specialRow i x y = some r) : classOf x = .infinity ∨ classOf x = .zero := by
  by_contra hn
  obtain ⟨h1, h2⟩ := not_or.1 hn
  rcases hi with rfl | rfl <;> simp [specialRow, h1, h2] at h

/-- A row makes FSIN and FCOS complete. -/
theorem declines_of_specialRow {i : Instr} {f : ResultForm} (h : computes i = some f) {x : Npx} {y : Ext} {r : SpecialRow Ext}
    (hr : specialRow i (x.st 0) y = some r) : declines i x = false := by
  have htop {p : List PrefixByte} (hi : i = .fsin p ∨ i = .fcos p) : declines i x = false := by
    rcases class_of_specialRow hi hr with hc | hc
    · exact declines_of_top (by rw [hc]; decide) (by rw [hc]; decide)
    · exact declines_of_top (by rw [hc]; decide) (by rw [hc]; decide)
  cases i with
  | fsin p => exact htop (.inl rfl)
  | fcos p => exact htop (.inr rfl)
  | fptan p | fsincos p => cases h
  | _ => rfl

/-- A row with a result makes a partial remainder complete. -/
theorem ran_special_code {i : Instr} {f : ResultForm} (h : computes i = some f) (hi : reduces i = true) {s : State} {v : Ext}
    (he : f.hasEmpty s i = false) (hord : ∀ x ∈ f.patterns s.npx (operandBytes s i), ordinary x = true)
    (hr : specialRow i (s.npx.st 0) (s.npx.st 1) = some (.value v))
    (hd : (SpecialRow.value v).delivers s.npx.cw (f.hasClass s i .denormal) = true) :
    (s.ran i).npx.sw.c3 = false ∧ (s.ran i).npx.sw.c2 = false ∧ (s.ran i).npx.sw.c0 = false := by
  obtain ⟨p, hp⟩ : ∃ p, i = .fprem p ∨ i = .fprem1 p := by cases i <;> cases hi <;> simp
  have hf : f = ⟨[.reg 0, .reg 1], 0, 0⟩ := by rcases hp with rfl | rfl <;> cases h <;> rfl
  subst hf
  have hr' : specialRow (.fprem p) (s.npx.st 0) (s.npx.st 1) = some (.value v) := by rcases hp with rfl | rfl <;> exact hr
  obtain ⟨h0, h1⟩ : s.npx.empty 0 = false ∧ s.npx.empty 1 = false := by
    have he' : (s.npx.empty 0 || (s.npx.empty 1 || false)) = false := he
    rwa [Bool.or_false, Bool.or_eq_false_iff] at he'
  rw [ResultForm.hasClass_two] at hd
  have hx : ordinary (s.npx.st 0) = true := hord _ (List.mem_map_of_mem (List.mem_cons_self))
  have hy : ordinary (s.npx.st 1) = true := hord _ (List.mem_map_of_mem (List.mem_cons_of_mem _ List.mem_cons_self))
  exact (ran_prem hp h0 h1).2 _ ((premOutcome_special hx hy hr').2 v rfl hd)

/-! The pairs. -/

theorem class_of_pairRow {i : Instr} {x : Ext} {r : SpecialRow (Ext × Ext)} (h : pairRow i x = some r) :
    classOf x ≠ .normal ∧ classOf x ≠ .denormal := by
  unfold pairRow at h
  constructor <;> intro hc <;> rw [hc] at h <;> cases h

theorem zeroOf_signOf {x : Ext} (h : classOf x = .zero) : zeroOf (signOf x) = x := by
  obtain ⟨hb, hs⟩ := (classOf_zero_iff x).1 h
  rw [zeroOf]
  conv_rhs => rw [← ext_fields x, hb, hs]

section

variable {cw : ControlWord} {x : Ext} {r : SpecialRow (Ext × Ext)} {p : List PrefixByte}

theorem xtractResult_special (h : pairRow (.fxtract p) x = some r) : xtractResult cw x = r.toResult cw false := by
  unfold pairRow at h
  unfold xtractResult
  cases hc : classOf x with
  | zero =>
    rw [hc] at h
    cases h
    rw [zeroOf_signOf hc]
    rfl
  | _ =>
    rw [hc] at h
    cases h <;> rfl

theorem tanResult_special (h : pairRow (.fptan p) x = some r) : tanResult cw x = r.toResult cw false := by
  unfold pairRow at h
  unfold tanResult pairOperand
  cases hc : classOf x with
  | _ =>
    rw [hc] at h
    cases h <;> rfl

theorem sincosResult_special (h : pairRow (.fsincos p) x = some r) : sincosResult cw x = r.toResult cw false := by
  unfold pairRow at h
  unfold sincosResult pairOperand
  cases hc : classOf x with
  | _ =>
    rw [hc] at h
    cases h <;> rfl

end

theorem pairValue_special {i : Instr} (hi : makesPair i = true) {x : Npx} {r : SpecialRow (Ext × Ext)}
    (hr : pairRow i (x.st 0) = some r) : pairValue i x = r.toResult x.cw false := by
  cases i with
  | fxtract p => exact xtractResult_special hr
  | fptan p => exact tanResult_special hr
  | fsincos p => exact sincosResult_special hr
  | _ => cases hi

/-- Settles O51: each instruction's rows, as results. -/
theorem specialOperandRows : Obligations.SpecialOperandRows := by
  unfold Obligations.SpecialOperandRows
  refine ⟨fun i s f r h ho he hu hs hq hr hl => ?single, fun i s r hi ho he hfull hr => ?pair⟩
  case single =>
    have hdec := declines_of_specialRow h hr
    have e := ran_computed h he hdec
    rw [computedValue_special h hu hs hq hr hl] at e
    obtain ⟨hraised, hdel, hab⟩ := e.special_row
    refine ⟨_, exec_of_operable ho, hraised, fun hd => ⟨(hdel hd).1, (hdel hd).2, fun v hv hred => ?_⟩, hab, fun p hp => ?_⟩
    · subst hv
      exact ran_special_code h hred he (ordinary_of_hasClass h hu hs hq) hr hd
    · have hcode := (ran_computes_code (s := s) (.inl h) hdec).2.1
      rcases hp with rfl | rfl <;> exact hcode
  case pair =>
    obtain ⟨hn, hd⟩ := class_of_pairRow hr
    have hdec : declines i s.npx = false := declines_of_top hn hd
    have e := ran_pairValue hi he hfull hdec
    rw [pairValue_special hi hr] at e
    obtain ⟨hraised, hdel, hab⟩ := Ends.special_row (keep := false) e
    have hcode := ran_pair_c2 (s := s) hi hdec
    refine ⟨_, exec_of_operable ho, hraised, e.c1 _ (r.toResult_c1 _ _), fun hd => (hdel hd).1, fun hd => (hab hd).1,
      fun p hp => ?_⟩
    rcases hp with rfl | rfl <;> exact hcode

end Sys2Proof.Machine
end

section
/-! PROOFS. The transcendental instructions, for every value of the parameter TRANSC (spec/45_transcendental.md R300 to R309,
log 18). -/

namespace Sys2Proof.Machine

/-! What is delivered has the sign it is given. -/

/-- The result is delivered, with a sign. -/
def Gives (neg : Bool) (r : Result Ext) : Prop := ∃ v, r.val = some v ∧ signOf v = neg

theorem Gives.withDenormal {neg : Bool} {r : Result Ext} (h : Gives neg r) (d : Bool) : Gives neg (r.withDenormal d) := by
  obtain ⟨v, hv, hs⟩ := h
  exact ⟨v, by rw [Result.withDenormal_val, hv], hs⟩

theorem gives_ok {v : Ext} {neg : Bool} (h : signOf v = neg) : Gives neg (.ok v) := ⟨v, rfl, h⟩

theorem signOf_encodeNormal (s : Bool) (q : Nat) (u : ℤ) : signOf (encodeNormal s q u) = s := signOf_ext _ _ _

theorem deliver_gives (cw : ControlWord) (p : Nat) (neg : Bool) (v : Mag) : Gives neg (deliver cw p neg v) := by
  unfold deliver
  dsimp only
  split_ifs
  · unfold deliverOverflow
    split_ifs <;> exact ⟨_, rfl, signOf_ext _ _ _⟩
  · unfold deliverUnderflow
    split_ifs
    · exact ⟨_, rfl, signOf_ext _ _ _⟩
    · exact ⟨_, rfl, signOf_ext _ _ _⟩
    · exact ⟨_, rfl, signOf_ext _ _ _⟩
  · exact ⟨_, rfl, signOf_encodeNormal _ _ _⟩

theorem deliverTransc_gives (cw : ControlWord) (f : TranscFn) (x y : Ext) (s : Bool) : Gives s (deliverTransc cw f x y s) := by
  unfold deliverTransc
  split_ifs
  · exact gives_ok (zeroOf_spec s).2.1
  · exact deliver_gives cw 64 s _

/-! The range and the quadrant. -/

/-- 2^k and the exponent of a nonzero pattern. -/
theorem le_log2_iff {x : Ext} (hx : val x ≠ 0) (k : ℤ) : k ≤ (magOf x).log2 ↔ (2 : ℚ) ^ k ≤ |val x| := by
  obtain ⟨h1, h2⟩ := (magOf_rep x).log2_bounds fun h => hx ((val_eq_zero_iff x).2 h)
  constructor
  · intro h
    exact (two_zpow_le_two_zpow.2 h).trans h1
  · intro h
    exact Int.lt_add_one_iff.1 (two_zpow_lt_two_zpow.1 (h.trans_lt h2))

theorem topTooLarge_iff {x : Npx} (hf : finite (x.st 0) = true) :
    x.topTooLarge = true ↔ (2 : ℚ) ^ (63 : ℤ) ≤ |val (x.st 0)| := by
  unfold Npx.topTooLarge tooLarge
  generalize x.st 0 = v at hf
  by_cases h0 : val v = 0
  · rw [(classOf_zero_iff_val hf).2 h0, h0, abs_zero]
    constructor
    · intro h
      cases h
    · intro h
      exact absurd h (not_le.2 (zpow_pos two_pos _))
  · have hc := classOf_of_finite hf h0
    have hz : classOf v ≠ .zero := fun h => h0 ((classOf_zero_iff_val hf).1 h)
    rw [← le_log2_iff h0]
    simp [hc.symm, hz]

theorem quadrant_of_lt_one {x : Ext} (hx : val x ≠ 0) (h : |val x| < 1) : quadrant x = 0 := by
  have hlog : ¬0 ≤ (magOf x).log2 := by
    rw [le_log2_iff hx, zpow_zero]
    exact not_le.2 h
  rw [quadrant, if_neg hlog]

/-- Below 1 the sine and the tangent have the operand's sign, the cosine is positive. -/
theorem signs_of_lt_one {x : Ext} (hx : val x ≠ 0) (h : |val x| < 1) :
    sinSign x = signOf x ∧ cosSign x = false ∧ tanSign x = signOf x := by
  rw [sinSign, cosSign, tanSign, quadrant_of_lt_one hx h]
  cases signOf x <;> decide

/-! FSIN, FCOS, FPTAN and FSINCOS of a number. -/

section

variable {cw : ControlWord} {x : Ext}

theorem trigResult_zero (hz : classOf x = .zero) (f : TranscFn) (sign : Ext → Bool) (zero : Ext → Ext) :
    trigResult cw f sign zero x = .ok (zero x) := by
  rw [trigResult, Result.oneOperand_of_ordinary (by simp [ordinary, finite, hz]), if_neg (by rw [hz]; decide), if_pos hz]

theorem trigResult_number (hu : usable cw.dm x = true) (h0 : val x ≠ 0) (f : TranscFn) (sign : Ext → Bool)
    (zero : Ext → Ext) :
    trigResult cw f sign zero x = (deliverTransc cw f x 0 (sign x)).withDenormal (classOf x == .denormal) := by
  obtain ⟨hf, -⟩ := usable_iff.1 hu
  rw [trigResult, Result.oneOperand_of_ordinary (ordinary_of_finite hf), if_neg (classOf_ne_infinity hf),
    if_neg (fun h => h0 ((classOf_zero_iff_val hf).1 h)), Result.denormal_masked _ _ _ (masked_of_usable hu)]

theorem pairOperand_number (hf : finite x = true) (k : Result (Ext × Ext)) : pairOperand cw x k = k := by
  obtain ⟨h1, h2, h3⟩ := (ordinary_iff x).1 (ordinary_of_finite hf)
  have h4 := classOf_ne_infinity hf
  unfold pairOperand
  split <;> simp_all

/-- What FPTAN leaves, with the sign of the tangent. -/
theorem tanResult_number (hu : usable cw.dm x = true) :
    ∃ a, (tanResult cw x).val = some (a, one) ∧ (|val x| < 1 → signOf a = signOf x) := by
  obtain ⟨hf, -⟩ := usable_iff.1 hu
  rw [tanResult, pairOperand_number hf]
  by_cases h0 : val x = 0
  · rw [if_pos ((classOf_zero_iff_val hf).2 h0)]
    exact ⟨x, rfl, fun _ => rfl⟩
  · rw [if_neg (fun h => h0 ((classOf_zero_iff_val hf).1 h)), Result.denormal_masked _ _ _ (masked_of_usable hu)]
    obtain ⟨a, ha, hs⟩ := deliverTransc_gives cw .tan x 0 (tanSign x)
    exact ⟨a, by rw [Result.withDenormal_val, Result.paired, ha]; rfl, fun h => hs.trans (signs_of_lt_one h0 h).2.2⟩

/-- What FSINCOS leaves is what FSIN and FCOS leave, with the signs of the sine and the cosine. -/
theorem sincosResult_number (hu : usable cw.dm x = true) :
    ∃ a b, (sincosResult cw x).val = some (a, b) ∧ (trigResult cw .sin sinSign (fun y => y) x).val = some a ∧
      (trigResult cw .cos cosSign (fun _ => one) x).val = some b ∧
      (|val x| < 1 → signOf a = signOf x ∧ signOf b = false) := by
  obtain ⟨hf, -⟩ := usable_iff.1 hu
  rw [sincosResult, pairOperand_number hf]
  by_cases h0 : val x = 0
  · have hz := (classOf_zero_iff_val hf).2 h0
    rw [if_pos hz, trigResult_zero hz, trigResult_zero hz]
    exact ⟨x, one, rfl, rfl, rfl, fun _ => ⟨rfl, by decide⟩⟩
  · rw [if_neg (fun h => h0 ((classOf_zero_iff_val hf).1 h)), Result.denormal_masked _ _ _ (masked_of_usable hu),
      trigResult_number hu h0, trigResult_number hu h0]
    obtain ⟨a, ha, hsa⟩ := deliverTransc_gives cw .sin x 0 (sinSign x)
    obtain ⟨b, hb, hsb⟩ := deliverTransc_gives cw .cos x 0 (cosSign x)
    refine ⟨a, b, ?_, by rw [Result.withDenormal_val, ha], by rw [Result.withDenormal_val, hb], fun h => ?_⟩
    · rw [Result.withDenormal_val, Result.both, ha, hb]
    · obtain ⟨h1, h2, -⟩ := signs_of_lt_one h0 h
      exact ⟨hsa.trans h1, hsb.trans h2⟩

end

/-! The instructions. -/

/-- A result in ST(0). -/
theorem top_of_delivered {x y : Npx} {v : Ext} (h : Delivered x y 0 0 v) :
    OnlyAt x y [x.sw.top] ∧ y.tag x.sw.top = tagOf (y.st 0) ∧ y.st 0 = v := by
  obtain ⟨hv, htop, hreg, htag⟩ := h
  have htop' : y.sw.top = x.sw.top := by rw [htop]; exact BitVec.add_zero _
  have hst : y.st 0 = v := by
    rw [← hv]
    show y.reg (y.sw.top + 0) = y.reg (x.sw.top + 0)
    rw [htop']
  have hphys : x.phys 0 = x.sw.top := BitVec.add_zero _
  have htag' (k : Idx) := htag k
  simp only [Nat.not_lt_zero, if_false, hphys] at htag'
  refine ⟨⟨htop', fun k hk => ?_⟩, ?_, hst⟩
  · have hne : k ≠ x.sw.top := fun h => hk (by rw [h]; exact List.mem_singleton_self _)
    exact ⟨hreg k (by rw [hphys]; exact hne), by rw [htag', if_neg hne]⟩
  · rw [htag', if_pos rfl, hst]

section

variable {p : List PrefixByte} {s : State} {i : Instr} (he : s.npx.empty 0 = false) (hf : finite (s.npx.st 0) = true)
include he hf

/-- The four instructions decline a number of 2^63 or more, and no other. -/
theorem declines_trig_iff (hi : i = .fsin p ∨ i = .fcos p ∨ i = .fptan p ∨ i = .fsincos p)
    (hfull : (i = .fptan p ∨ i = .fsincos p) → s.npx.full = false) :
    declines i s.npx = true ↔ (2 : ℚ) ^ (63 : ℤ) ≤ |val (s.npx.st 0)| := by
  rw [← topTooLarge_iff hf]
  rcases hi with rfl | rfl | rfl | rfl
  · rw [declines, he]; rfl
  · rw [declines, he]; rfl
  · rw [declines, he, hfull (.inl rfl)]; rfl
  · rw [declines, he, hfull (.inr rfl)]; rfl

end

section

variable {p : List PrefixByte} {s : State} (he : s.npx.empty 0 = false) (hu : usable s.npx.cw.dm (s.npx.st 0) = true)
  (hlt : |val (s.npx.st 0)| < (2 : ℚ) ^ (63 : ℤ))
include he hu hlt

/-- FSIN in its range. -/
theorem ran_fsin : ∃ a, (trigResult s.npx.cw .sin sinSign (fun y => y) (s.npx.st 0)).val = some a ∧
    Delivered s.npx (s.ran (.fsin p)).npx 0 0 a ∧ (s.ran (.fsin p)).npx.sw.c2 = false ∧
    (|val (s.npx.st 0)| < 1 → signOf a = signOf (s.npx.st 0)) := by
  obtain ⟨a, b, -, ha, -, hs⟩ := sincosResult_number hu
  have hd : declines (.fsin p) s.npx = false := Bool.eq_false_iff.2 fun h =>
    absurd ((declines_trig_iff he (usable_iff.1 hu).1 (.inl rfl) (fun h => by simp at h)).1 h) (not_le.2 hlt)
  exact ⟨a, ha, (ran_top (i := .fsin p) rfl he hd).delivers a ha, (ran_computes_code (.inl rfl) hd).2.1, fun h => (hs h).1⟩

/-- FCOS in its range. -/
theorem ran_fcos : ∃ b, (trigResult s.npx.cw .cos cosSign (fun _ => one) (s.npx.st 0)).val = some b ∧
    Delivered s.npx (s.ran (.fcos p)).npx 0 0 b ∧ (s.ran (.fcos p)).npx.sw.c2 = false ∧
    (|val (s.npx.st 0)| < 1 → signOf b = false) := by
  obtain ⟨a, b, -, -, hb, hs⟩ := sincosResult_number hu
  have hd : declines (.fcos p) s.npx = false := Bool.eq_false_iff.2 fun h =>
    absurd ((declines_trig_iff he (usable_iff.1 hu).1 (.inr (.inl rfl)) (fun h => by simp at h)).1 h) (not_le.2 hlt)
  exact ⟨b, hb, (ran_top (i := .fcos p) rfl he hd).delivers b hb, (ran_computes_code (.inl rfl) hd).2.1, fun h => (hs h).2⟩

variable (hfull : s.npx.full = false)
include hfull

/-- FPTAN in its range. -/
theorem ran_fptan : ∃ a, DeliveredPair s.npx (s.ran (.fptan p)).npx a one ∧ (s.ran (.fptan p)).npx.sw.c2 = false ∧
    (|val (s.npx.st 0)| < 1 → signOf a = signOf (s.npx.st 0)) := by
  obtain ⟨a, ha, hs⟩ := tanResult_number hu
  have hd : declines (.fptan p) s.npx = false := Bool.eq_false_iff.2 fun h =>
    absurd ((declines_trig_iff he (usable_iff.1 hu).1 (.inr (.inr (.inl rfl))) (fun _ => hfull)).1 h) (not_le.2 hlt)
  exact ⟨a, (ran_pairValue (i := .fptan p) rfl he hfull hd).delivers (a, one) ha, ran_pair_c2 (i := .fptan p) rfl hd, hs⟩

/-- FSINCOS in its range leaves what FSIN and FCOS leave. -/
theorem ran_fsincos : ∃ a b, DeliveredPair s.npx (s.ran (.fsincos p)).npx a b ∧ (s.ran (.fsincos p)).npx.sw.c2 = false ∧
    (trigResult s.npx.cw .sin sinSign (fun y => y) (s.npx.st 0)).val = some a ∧
    (trigResult s.npx.cw .cos cosSign (fun _ => one) (s.npx.st 0)).val = some b ∧
    (|val (s.npx.st 0)| < 1 → signOf a = signOf (s.npx.st 0) ∧ signOf b = false) := by
  obtain ⟨a, b, hab, ha, hb, hs⟩ := sincosResult_number hu
  have hd : declines (.fsincos p) s.npx = false := Bool.eq_false_iff.2 fun h =>
    absurd ((declines_trig_iff he (usable_iff.1 hu).1 (.inr (.inr (.inr rfl))) (fun _ => hfull)).1 h) (not_le.2 hlt)
  exact ⟨a, b, (ran_pairValue (i := .fsincos p) rfl he hfull hd).delivers (a, b) hab, ran_pair_c2 (i := .fsincos p) rfl hd,
    ha, hb, hs⟩

end

/-- FSIN and FCOS are operable where FSINCOS is: none of them has an operand in memory. -/
theorem operable_of_fsincos {p q r : List PrefixByte} {s : State} (h : operable s (.fsincos p) = true) :
    operable s (.fsin q) = true ∧ operable s (.fcos r) = true := ⟨h, h⟩

/-- Settles O49: each instruction in its range, and out of it. -/
theorem trigonometricInstructions : Obligations.TrigonometricInstructions := by
  unfold Obligations.TrigonometricInstructions
  refine ⟨fun p s i hi ho he hfull hu => ?writes, fun p q r s t u v he hfull hu hlt ho ht hu' hv => ?sincos⟩
  case writes =>
    refine ⟨_, exec_of_operable ho, fun hge => ?large, ?_⟩
    case large =>
      have h := ran_declines ((declines_trig_iff he (usable_iff.1 hu).1 hi hfull).2 hge)
      exact ⟨h.2.2, h.1, h.2.1⟩
    have hone (h1 : |val (s.npx.st 0)| < 1) : |val (s.npx.st 0)| < (2 : ℚ) ^ (63 : ℤ) := h1.trans (by norm_num)
    rcases hi with rfl | rfl | rfl | rfl
    · refine ⟨fun hlt => ?_, fun h1 => ?_⟩
      · obtain ⟨a, -, hdel, hc2, -⟩ := ran_fsin (p := p) he hu hlt
        obtain ⟨hat, htag, -⟩ := top_of_delivered hdel
        exact ⟨hc2, fun _ => ⟨hat, htag⟩, by simp, by simp⟩
      · obtain ⟨a, -, hdel, -, hs⟩ := ran_fsin (p := p) he hu (hone h1)
        refine ⟨fun _ => ?_, by simp, by simp, by simp⟩
        rw [(top_of_delivered hdel).2.2]
        exact hs h1
    · refine ⟨fun hlt => ?_, fun h1 => ?_⟩
      · obtain ⟨b, -, hdel, hc2, -⟩ := ran_fcos (p := p) he hu hlt
        obtain ⟨hat, htag, -⟩ := top_of_delivered hdel
        exact ⟨hc2, fun _ => ⟨hat, htag⟩, by simp, by simp⟩
      · obtain ⟨b, -, hdel, -, hs⟩ := ran_fcos (p := p) he hu (hone h1)
        refine ⟨by simp, fun _ => ?_, by simp, by simp⟩
        rw [(top_of_delivered hdel).2.2]
        exact hs h1
    · have hfull := hfull (.inl rfl)
      refine ⟨fun hlt => ?_, fun h1 => ?_⟩
      · obtain ⟨a, ⟨htop, h0, h1, htag0, htag1, hother⟩, hc2, -⟩ := ran_fptan (p := p) he hu hlt hfull
        exact ⟨hc2, by simp, fun _ => ⟨htop, by rw [htag0, h0], by rw [htag1, h1], hother⟩, fun _ => h0⟩
      · obtain ⟨a, ⟨-, -, hst1, -⟩, -, hs⟩ := ran_fptan (p := p) he hu (hone h1) hfull
        exact ⟨by simp, by simp, fun _ => by rw [hst1]; exact hs h1, by simp⟩
    · have hfull := hfull (.inr rfl)
      refine ⟨fun hlt => ?_, fun h1 => ?_⟩
      · obtain ⟨a, b, ⟨htop, h0, h1, htag0, htag1, hother⟩, hc2, -⟩ := ran_fsincos (p := p) he hu hlt hfull
        exact ⟨hc2, by simp, fun _ => ⟨htop, by rw [htag0, h0], by rw [htag1, h1], hother⟩, by simp⟩
      · obtain ⟨a, b, ⟨-, hst0, hst1, -⟩, -, -, -, hs⟩ := ran_fsincos (p := p) he hu (hone h1) hfull
        exact ⟨by simp, by simp, fun _ => by rw [hst1]; exact (hs h1).1, fun _ => by rw [hst0]; exact (hs h1).2⟩
  case sincos =>
    obtain ⟨hsin, hcos⟩ := operable_of_fsincos (q := q) (r := r) ho
    obtain rfl := Host.Outcome.next.inj ((exec_of_operable ho).symm.trans ht)
    obtain rfl := Host.Outcome.next.inj ((exec_of_operable hsin).symm.trans hu')
    obtain rfl := Host.Outcome.next.inj ((exec_of_operable hcos).symm.trans hv)
    obtain ⟨a, b, ⟨-, hst0, hst1, -⟩, -, ha, hb, -⟩ := ran_fsincos (p := p) he hu hlt hfull
    obtain ⟨a', ha', hdela, -⟩ := ran_fsin (p := q) he hu hlt
    obtain ⟨b', hb', hdelb, -⟩ := ran_fcos (p := r) he hu hlt
    rw [hst0, hst1, (top_of_delivered hdela).2.2, (top_of_delivered hdelb).2.2]
    exact ⟨Option.some.inj (ha.symm.trans ha'), Option.some.inj (hb.symm.trans hb')⟩

end Sys2Proof.Machine
end

section
/-! PROOFS. FPATAN, FYL2X, FYL2XP1 and F2XM1: what they write, and the exact cases (spec/45_transcendental.md R303, R306 to
R308). -/

namespace Sys2Proof.Machine

/-! Powers of two. -/

/-- A pattern whose magnitude is a power of two. -/
theorem sig_of_power {x : Ext} {n : ℤ} (h : |val x| = (2 : ℚ) ^ n) : (magOf x).log2 = n ∧ sig x = 2 ^ (sig x).log2 := by
  have hx : val x ≠ 0 := fun h0 => (zpow_pos (two_pos (α := ℚ)) n).ne (by rw [← h, h0, abs_zero])
  have hsig : sig x ≠ 0 := fun h0 => hx ((val_eq_zero_iff x).2 h0)
  have hlog : (magOf x).log2 = n := by
    rw [← (magOf_rep x).log_eq hsig, h]
    exact Int.log_zpow (by norm_num) n
  refine ⟨hlog, ?_⟩
  have hdef : (magOf x).log2 = trueExp x + (sig x).log2 := rfl
  rw [abs_val, ← hlog, hdef, add_comm, zpow_add₀ two_ne_zero, zpow_natCast] at h
  exact_mod_cast mul_right_cancel₀ (zpow_ne_zero _ two_ne_zero) h

theorem powerOfTwo_eq {x : Ext} {n : ℤ} (h : |val x| = (2 : ℚ) ^ n) : powerOfTwo x = some n := by
  obtain ⟨hlog, hsig⟩ := sig_of_power h
  rw [powerOfTwo, if_pos hsig, hlog]

theorem val_one : val one = 1 := by
  rw [val_eq, show signOf one = false by decide, show sig one = 2 ^ 63 by decide, show trueExp one = -63 by decide]
  norm_num

/-- 1 has one pattern, and so has -1. -/
theorem eq_one_of_abs {x : Ext} (hf : finite x = true) (h : |val x| = 1) :
    x = if signOf x then negate one else one := by
  obtain ⟨hlog, hsig⟩ := sig_of_power (n := 0) (by rw [h, zpow_zero])
  have hdef : (magOf x).log2 = trueExp x + (sig x).log2 := rfl
  have hs64 := sig_lt x
  rw [hsig, Nat.pow_lt_pow_iff_right (by norm_num)] at hs64
  have hte : trueExp x = (max (bexp x) 1 : Nat) - 16446 := rfl
  have hb : bexp x = 0x3FFF ∧ (sig x).log2 = 63 := by
    rw [finite_iff] at hf
    rcases hf with hb | ⟨-, h63⟩
    · omega
    · rw [hsig, Nat.pow_le_pow_iff_right (by norm_num)] at h63
      omega
  rw [hb.2] at hsig
  rw [← ext_fields x, hb.1, hsig, signOf_ext]
  cases signOf x <;> decide

/-! The results. -/

section

variable {cw : ControlWord} {x y : Ext} (hx : usable cw.dm x = true) (hy : usable cw.dm y = true)
include hx hy

theorem masked_of_two : (classOf x == .denormal || classOf y == .denormal) = true → cw.dm = true := fun h =>
  (Bool.or_eq_true_iff.1 h).elim (masked_of_usable hx) (masked_of_usable hy)

/-- FPATAN of two numbers delivers. -/
theorem atanResult_delivers : ∃ v, (atanResult cw x y).val = some v := by
  rw [atanResult, Result.twoOperands_of_ordinary (ordinary_of_finite (usable_iff.1 hx).1) (ordinary_of_finite (usable_iff.1 hy).1),
    Result.denormal_masked _ _ _ (masked_of_two hx hy), Result.withDenormal_val]
  split
  · exact ⟨_, rfl⟩
  · obtain ⟨v, hv, -⟩ := deliver_gives cw 64 (signOf y) _
    exact ⟨v, hv⟩
  · obtain ⟨v, hv, -⟩ := deliverTransc_gives cw .atan2 y x (signOf y)
    exact ⟨v, hv⟩

/-- FYL2XP1 in its range delivers. -/
theorem yl2xp1Result_delivers (hr : InLogRange x) (n : Nat) : ∃ v, (yl2xp1Result cw n x y).val = some v := by
  have hxi := classOf_ne_infinity (usable_iff.1 hx).1
  have hyi := classOf_ne_infinity (usable_iff.1 hy).1
  rw [yl2xp1Result, Result.twoOperands_of_ordinary (ordinary_of_finite (usable_iff.1 hx).1) (ordinary_of_finite (usable_iff.1 hy).1),
    if_neg (not_or.2 ⟨hxi, ne_true_of_eq_false (beyondLogRange_of_inLogRange hr)⟩), if_neg (fun h => hyi h.2),
    Result.denormal_masked _ _ _ (masked_of_two hx hy), Result.withDenormal_val]
  split_ifs
  · exact ⟨_, rfl⟩
  · exact ⟨_, rfl⟩
  · obtain ⟨v, hv, -⟩ := deliverTransc_gives cw .yl2xp1 x y (signOf x != signOf y)
    exact ⟨v, hv⟩

theorem yl2xResult_number (hpos : 0 < val x) :
    yl2xResult cw x y = Result.withDenormal (classOf x == .denormal || classOf y == .denormal)
      (if x = one then .ok (zeroOf (signOf y))
        else if classOf y = .zero then .ok (zeroOf (signOf y != decide ((magOf x).log2 < 0)))
        else match powerOfTwo x with
          | some k => deliver cw 64 (signOf y != decide ((magOf x).log2 < 0)) { magOf y with m := k.natAbs * sig y }
          | none => deliverTransc cw .yl2x x y (signOf y != decide ((magOf x).log2 < 0))) := by
  have hfx := (usable_iff.1 hx).1
  have hxi := classOf_ne_infinity hfx
  have hyi := classOf_ne_infinity (usable_iff.1 hy).1
  have hxz : classOf x ≠ .zero := fun h => hpos.ne' ((classOf_zero_iff_val hfx).1 h)
  have hs : signOf x = false := (val_pos_iff hpos.ne').1 hpos
  rw [yl2xResult, Result.twoOperands_of_ordinary (ordinary_of_finite hfx) (ordinary_of_finite (usable_iff.1 hy).1)]
  dsimp only
  rw [if_neg, Result.denormal_masked _ _ _ (masked_of_two hx hy), if_neg hxz, if_neg hxi]
  · simp only [hyi, if_false] <;> rfl
  · simp [hs, hxz, hxi, hyi]

theorem yl2xResult_delivers (hpos : 0 < val x) : ∃ v, (yl2xResult cw x y).val = some v := by
  rw [yl2xResult_number hx hy hpos, Result.withDenormal_val]
  split_ifs
  · exact ⟨_, rfl⟩
  · exact ⟨_, rfl⟩
  · split
    · obtain ⟨v, hv, -⟩ := deliver_gives cw 64 _ _
      exact ⟨v, hv⟩
    · obtain ⟨v, hv, -⟩ := deliverTransc_gives cw .yl2x x y _
      exact ⟨v, hv⟩

/-- FYL2X of a power of two is the product, rounded. -/
theorem yl2xResult_power {n : ℤ} (hn : val x = (2 : ℚ) ^ n) (hr : InRange ((n : ℚ) * val y)) :
    ∃ v, (yl2xResult cw x y).val = some v ∧
      IsRounding cw.rc ((n : ℚ) * val y) (Int.log 2 |(n : ℚ) * val y| - 63) (val v) := by
  have hpos : 0 < val x := hn ▸ zpow_pos two_pos n
  have habs : |val x| = (2 : ℚ) ^ n := by rw [abs_of_pos hpos, hn]
  have h0 : (n : ℚ) * val y ≠ 0 := fun h => absurd hr.1 (by rw [h, abs_zero]; exact not_le.2 (zpow_pos two_pos _))
  have hn0 : n ≠ 0 := fun h => h0 (by rw [h, Int.cast_zero, zero_mul])
  have hy0 : val y ≠ 0 := right_ne_zero_of_mul h0
  have hone : x ≠ one := fun h => by
    rw [h, val_one, eq_comm, zpow_eq_one_iff_right₀ (by norm_num) (by norm_num)] at hn
    exact hn0 hn
  rw [yl2xResult_number hx hy hpos, if_neg hone, if_neg (fun h => hy0 ((classOf_zero_iff_val (usable_iff.1 hy).1).1 h)),
    powerOfTwo_eq habs, (sig_of_power habs).1, Result.withDenormal_val]
  have hm : Exactly { magOf y with m := n.natAbs * sig y } 64 |(n : ℚ) * val y| := by
    refine ⟨?_, ?_, by norm_num, le_rfl, fun h => by cases h⟩
    · show |(n : ℚ) * val y| = ((n.natAbs * sig y : Nat) : ℚ) * 2 ^ trueExp y
      rw [abs_mul, abs_val, Nat.cast_mul, Nat.cast_natAbs, Int.cast_abs, mul_assoc]
    · exact Nat.mul_ne_zero (Int.natAbs_ne_zero.2 hn0) fun h => hy0 ((val_eq_zero_iff y).2 h)
  have hsgn : sgn (signOf y != decide (n < 0)) * |(n : ℚ) * val y| = n * val y := by
    rw [sgn_bne, abs_mul]
    have h1 : sgn (decide (n < 0)) * |(n : ℚ)| = n := by
      rcases lt_or_ge n 0 with h | h
      · rw [decide_eq_true h, sgn_true, abs_of_neg (by exact_mod_cast h)]; ring
      · rw [decide_eq_false (not_lt.2 h), sgn_false, abs_of_nonneg (by exact_mod_cast h), one_mul]
    calc _ = sgn (decide (n < 0)) * |(n : ℚ)| * (sgn (signOf y) * |val y|) := by ring
      _ = n * val y := by rw [h1, ← val_eq_sgn]
  have hround : IsRounding cw.rc (sgn (signOf y != decide (n < 0)) * |(n : ℚ) * val y|)
      (({ magOf y with m := n.natAbs * sig y } : Mag).log2 - (64 : Nat) + 1) _ := (hm.roundsTo cw.rc _).isRounding
  obtain ⟨pe, up, v, hd, -, -, -, -, hv⟩ := deliver_normal (cw := cw) hm hround hr.1
    ((hm.abs_lt_of_lt hround hr.2).trans_le (two_zpow_le_two_zpow.2 (by norm_num)))
  rw [hsgn, ← hv, ← hm.rep.log_eq hm.m_ne, Rat.cast_id] at hround
  refine ⟨v, congrArg Result.val hd, ?_⟩
  convert hround using 1
  push_cast
  ring

end

/-! F2XM1. -/

theorem aboveOne_eq_false {x : Ext} (h : |val x| ≤ 1) : aboveOne x = false := by
  have hfix : ((fixed x).natAbs : ℚ) = |val x| * ((2 ^ 16445 : ℕ) : ℚ) := by
    rw [Nat.cast_natAbs, Int.cast_abs, fixed_eq, abs_mul,
      abs_of_pos (show (0 : ℚ) < 2 ^ (16445 : ℤ) from zpow_pos two_pos _), Nat.cast_pow, Nat.cast_ofNat]
    rfl
  have hpos : 0 < 2 ^ 16445 := pow_pos two_pos _
  unfold aboveOne
  generalize 2 ^ 16445 = u at hfix hpos
  rw [decide_eq_false_iff_not, not_lt, ← Nat.cast_le (α := ℚ), hfix]
  exact mul_le_of_le_one_left (Nat.cast_nonneg u) h

/-- F2XM1 within [-1, 1] delivers; at 0, 1 and -1 it is exact. -/
theorem exp2m1Result_delivers {cw : ControlWord} {x : Ext} (hx : usable cw.dm x = true) (h1 : |val x| ≤ 1) (n : Nat) :
    ∃ v, (exp2m1Result cw n x).val = some v ∧ (val x = 0 → v = x) ∧ (val x = 1 → val v = 1) ∧
      (val x = -1 → val v = -1 / 2) := by
  have hf := (usable_iff.1 hx).1
  have hz : classOf x = .zero ↔ val x = 0 := classOf_zero_iff_val hf
  have hneg : val (negate one) = -1 := by rw [val_negate, val_one]
  rw [exp2m1Result, Result.oneOperand_of_ordinary (ordinary_of_finite hf)]
  by_cases h0 : val x = 0
  · rw [if_pos (hz.2 h0)]
    exact ⟨x, rfl, fun _ => rfl, fun h => by rw [h0] at h; norm_num at h, fun h => by rw [h0] at h; norm_num at h⟩
  rw [if_neg (fun h => h0 (hz.1 h))]
  by_cases hone : x = one
  · rw [if_pos hone, hone, val_one]
    exact ⟨one, rfl, by norm_num, fun _ => val_one, by norm_num⟩
  rw [if_neg hone]
  by_cases hm : x = negate one
  · rw [if_pos hm, hm, hneg]
    refine ⟨_, rfl, by norm_num, by norm_num, fun _ => ?_⟩
    rw [val_eq, show signOf (0xBFFE8000000000000000 : Ext) = true by decide,
      show sig (0xBFFE8000000000000000 : Ext) = 2 ^ 63 by decide,
      show trueExp (0xBFFE8000000000000000 : Ext) = -64 by decide]
    norm_num
  rw [if_neg hm, if_neg (not_or.2 ⟨classOf_ne_infinity hf, ne_true_of_eq_false (aboveOne_eq_false h1)⟩),
    Result.denormal_masked _ _ _ (masked_of_usable hx), Result.withDenormal_val]
  obtain ⟨v, hv, -⟩ := deliverTransc_gives cw .f2xm1 x 0 (signOf x)
  have hne : |val x| ≠ 1 := fun h => by
    have := eq_one_of_abs hf h
    cases hs : signOf x with
    | true => exact hm (by rwa [hs, if_pos rfl] at this)
    | false => exact hone (by rwa [hs, if_neg Bool.false_ne_true] at this)
  refine ⟨v, hv, fun h => absurd h h0, fun h => absurd ?_ hne, fun h => absurd ?_ hne⟩ <;> rw [h] <;> norm_num

/-! The end of FPATAN, FYL2X and FYL2XP1. -/

/-- A result in ST(1), and the pop. -/
theorem second_of_delivered {x y : Npx} {v : Ext} (h : Delivered x y 1 1 v) :
    y.sw.top = x.sw.top + 1 ∧ y.tag x.sw.top = .empty ∧ y.tag (x.phys 1) = tagOf (y.reg (x.phys 1)) ∧
      (∀ k, k ≠ x.phys 1 → y.reg k = x.reg k ∧ (k ≠ x.sw.top → y.tag k = x.tag k)) ∧ y.reg (x.phys 1) = v := by
  obtain ⟨hv, htop, hreg, htag⟩ := h
  have hzero (k : Idx) : (k - x.sw.top).toNat < 1 ↔ k = x.sw.top := by
    constructor
    · intro h
      bv_omega
    · rintro rfl
      simp
  have hne : x.phys 1 ≠ x.sw.top := by
    show x.sw.top + 1 ≠ x.sw.top
    bv_omega
  refine ⟨htop, ?_, ?_, fun k hk => ⟨hreg k hk, fun ht => ?_⟩, hv⟩
  · rw [htag, if_pos ((hzero _).2 rfl)]
  · rw [htag, if_neg (fun h => hne ((hzero _).1 h)), if_pos rfl, hv]
  · rw [htag, if_neg (fun h => ht ((hzero _).1 h)), if_neg hk]

/-- Settles O50: `second_of_delivered` for what is written, `yl2xResult_power` and `exp2m1Result_delivers` for the exact
cases. -/
theorem logarithmsAndArctangent : Obligations.LogarithmsAndArctangent := by
  unfold Obligations.LogarithmsAndArctangent
  refine ⟨fun p s i hi ho h0 h1 hx hy => ?two, fun p s ho he hu h1 => ?one⟩
  case one =>
    have e := ran_top (s := s) (i := .f2xm1 p) rfl he rfl
    obtain ⟨v, hv, h0, h1, hm1⟩ := exp2m1Result_delivers hu h1 s.draws
    obtain ⟨hat, htag, hst⟩ := top_of_delivered (e.delivers v hv)
    rw [← hst] at h0 h1 hm1
    exact ⟨_, exec_of_operable ho, hat, htag, h0, h1, hm1⟩
  case two =>
    have hcomp : computes i = some ⟨[.reg 0, .reg 1], 1, 1⟩ := by rcases hi with rfl | ⟨rfl, -⟩ | ⟨rfl, -⟩ <;> rfl
    have hd : declines i s.npx = false := by rcases hi with rfl | ⟨rfl, -⟩ | ⟨rfl, -⟩ <;> rfl
    have he : (⟨[.reg 0, .reg 1], 1, 1⟩ : ResultForm).hasEmpty s i = false := by
      show (s.npx.empty 0 || (s.npx.empty 1 || false)) = false
      rw [h0, h1]
      rfl
    have e := ran_computed hcomp he hd
    have hval : ∃ v, (computedValue i s.draws (operandBytes s i) s.npx).val = some v := by
      rcases hi with rfl | ⟨rfl, hpos⟩ | ⟨rfl, hr⟩
      · exact atanResult_delivers hx hy
      · exact yl2xResult_delivers hx hy hpos
      · exact yl2xp1Result_delivers hx hy hr s.draws
    obtain ⟨v, hv⟩ := hval
    obtain ⟨htop, htag, htag1, hother, hreg⟩ := second_of_delivered (e.delivers v hv)
    refine ⟨_, exec_of_operable ho, htop, htag, htag1, hother, fun n hn hpow hrange => ?_⟩
    subst hn
    obtain ⟨w, hw, hround⟩ := yl2xResult_power hx hy hpow hrange
    obtain rfl : v = w := Option.some.inj (hv.symm.trans hw)
    rw [hreg]
    exact hround

end Sys2Proof.Machine
end

section
/-! PROOFS. The multiples of pi of FPATAN's table (spec/45_transcendental.md R303): twenty digits of pi decide the rounding to
64 bits. -/

namespace Sys2Proof.Machine

/-! Between a half and a whole unit above a multiple. -/

theorem UnitsIn.of_above_half {K : Type} [Field K] [LinearOrder K] [IsStrictOrderedRing K] {a : K} {u : ℤ} {q : Nat}
    (h1 : (2 * q + 1 : K) * 2 ^ u < 2 * a) (h2 : a < (q + 1 : K) * 2 ^ u) : UnitsIn a u q true .gt := by
  have hp : (0 : K) < 2 ^ u := zpow_pos two_pos _
  refine ⟨by linarith, h2, iff_of_true rfl (by intro h; rw [h] at h1; linarith), ?_⟩
  rw [eq_comm, compare_gt_iff_gt]
  show (2 : K) ^ u < _
  linarith

/-- The same, a power of two away. -/
theorem UnitsIn.scale {K : Type} [Field K] [LinearOrder K] [IsStrictOrderedRing K] {a : K} {u : ℤ} {q : Nat}
    (h : UnitsIn a u q true .gt) (j : ℤ) : UnitsIn (a * 2 ^ j) (u + j) q true .gt := by
  have hp : (0 : K) < 2 ^ j := zpow_pos two_pos _
  have hhalf := compare_gt_iff_gt.1 h.half.symm
  refine .of_above_half ?_ ?_
  · rw [zpow_add₀ two_ne_zero, ← mul_assoc, ← mul_assoc]
    refine mul_lt_mul_of_pos_right ?_ hp
    linarith
  · rw [zpow_add₀ two_ne_zero, ← mul_assoc]
    exact mul_lt_mul_of_pos_right h.lt hp

/-- The exponent of a number of 64 significant bits. -/
theorem UnitsIn.log_eq {θ : ℝ} {k : ℤ} {q : Nat} (h : UnitsIn θ (k - 63) q true .gt) (h1 : 2 ^ 63 ≤ q) (h2 : q < 2 ^ 64) :
    Int.log 2 θ = k := by
  have hp : (0 : ℝ) < 2 ^ (k - 63) := zpow_pos two_pos _
  have hq1 : ((2 ^ 63 : Nat) : ℝ) ≤ q := by exact_mod_cast h1
  have hq2 : (q : ℝ) + 1 ≤ (2 ^ 64 : Nat) := by exact_mod_cast h2
  refine log_eq_of_bounds (le_trans (le_of_eq ?_) ((mul_le_mul_of_nonneg_right hq1 hp.le).trans h.le))
    (h.lt.trans_le ((mul_le_mul_of_nonneg_right hq2 hp.le).trans (le_of_eq ?_)))
  · rw [Nat.cast_pow, Nat.cast_ofNat, ← zpow_natCast, ← zpow_add₀ two_ne_zero]
    congr 1
    push_cast
    ring
  · rw [Nat.cast_pow, Nat.cast_ofNat, ← zpow_natCast, ← zpow_add₀ two_ne_zero]
    congr 1
    push_cast
    ring

/-- Pi, to 64 bits. -/
theorem pi_units : UnitsIn Real.pi (-62) 0xC90FDAA22168C234 true .gt := by
  have h1 := Real.pi_gt_d20
  have h2 := Real.pi_lt_d20
  refine .of_above_half (lt_trans ?_ (mul_lt_mul_of_pos_left h1 two_pos)) (h2.trans ?_) <;> norm_num

/-- 3 pi / 4, to 64 bits. -/
theorem threeQuarterPi_units : UnitsIn (3 * Real.pi / 4) (-62) 0x96CBE3F9990E91A7 true .gt := by
  have h1 := Real.pi_gt_d20
  have h2 := Real.pi_lt_d20
  have h1' : (3 * 3.14159265358979323846 / 4 : ℝ) < 3 * Real.pi / 4 := by linarith
  have h2' : 3 * Real.pi / 4 < (3 * 3.14159265358979323847 / 4 : ℝ) := by linarith
  refine .of_above_half (lt_trans ?_ (mul_lt_mul_of_pos_left h1' two_pos)) (h2'.trans ?_) <;> norm_num

/-! The angles. -/

/-- A real number that a sticky magnitude stands for. -/
noncomputable def midpoint (v : Mag) : ℝ := (2 * v.m + 1) * 2 ^ (v.e - 1)

/-- The magnitude rounds as the angle does. -/
structure AngleOf (v : Mag) (θ : ℝ) : Prop where
  exactly : Exactly v 64 (midpoint v)
  units : ∃ q, 2 ^ 63 ≤ q ∧ q < 2 ^ 64 ∧ UnitsIn (midpoint v) (v.log2 - 63) q true .gt ∧ UnitsIn θ (v.log2 - 63) q true .gt
  range : -100 ≤ v.log2 ∧ v.log2 < 100

theorem exactly_midpoint {v : Mag} (hs : v.sticky = true) (hm : 2 ^ 65 ≤ v.m) : Exactly v 64 (midpoint v) := by
  have hp : (0 : ℝ) < 2 ^ (v.e - 1) := zpow_pos two_pos _
  have he : (2 : ℝ) ^ v.e = 2 * 2 ^ (v.e - 1) := by rw [← zpow_one_add₀ two_ne_zero, add_sub_cancel]
  refine ⟨?_, by omega, by norm_num, le_rfl, fun _ => hm⟩
  rw [Mag.Rep, if_pos hs, he, midpoint]
  constructor <;> nlinarith

/-- The bits of an angle, divided by a power of two. -/
theorem angleOf_scale {bits q : Nat} {θ : ℝ} (hlog : bits.log2 = 257) (h1 : 2 ^ 63 ≤ q) (h2 : q < 2 ^ 64)
    (hm : UnitsIn (midpoint (angleMag bits 0)) (-62) q true .gt) (hθ : UnitsIn θ (-62) q true .gt) {s : ℤ}
    (hs1 : 0 ≤ s) (hs2 : s ≤ 2) : AngleOf (angleMag bits s) (θ * 2 ^ (-s)) := by
  have hbits : bits ≠ 0 := fun h => by rw [h] at hlog; norm_num at hlog
  have hbig : 2 ^ 65 ≤ bits := by
    rw [← Nat.le_log2 hbits, hlog]
    norm_num
  have hl : (angleMag bits s).log2 = 1 - s := by
    show -256 - s + (bits.log2 : ℤ) = 1 - s
    rw [hlog]
    push_cast
    ring
  have hmid : midpoint (angleMag bits s) = midpoint (angleMag bits 0) * 2 ^ (-s) := by
    show (2 * (bits : ℝ) + 1) * 2 ^ (-256 - s - 1) = (2 * (bits : ℝ) + 1) * 2 ^ (-256 - 0 - 1 : ℤ) * 2 ^ (-s)
    rw [mul_assoc, ← zpow_add₀ two_ne_zero]
    congr 2
    ring
  have hu : (1 - s - 63 : ℤ) = -62 + -s := by ring
  refine ⟨exactly_midpoint rfl hbig, ⟨q, h1, h2, ?_, ?_⟩, by rw [hl]; omega⟩
  · rw [hl, hu, hmid]
    exact hm.scale (-s)
  · rw [hl, hu]
    exact hθ.scale (-s)

theorem midpoint_angleMag (bits : Nat) : midpoint (angleMag bits 0) = (2 * bits + 1) * (2 ^ (-200 : ℤ) * 2 ^ (-57 : ℤ)) := by
  rw [← zpow_add₀ two_ne_zero]
  rfl

theorem midpoint_pi_units : UnitsIn (midpoint (angleMag piBits 0)) (-62) 0xC90FDAA22168C234 true .gt := by
  rw [midpoint_angleMag, piBits]
  refine .of_above_half ?_ ?_ <;> norm_num

theorem midpoint_threeQuarterPi_units :
    UnitsIn (midpoint (angleMag threeQuarterPiBits 0)) (-62) 0x96CBE3F9990E91A7 true .gt := by
  rw [midpoint_angleMag, threeQuarterPiBits]
  refine .of_above_half ?_ ?_ <;> norm_num

theorem angleOf_pi {s : ℤ} (h1 : 0 ≤ s) (h2 : s ≤ 2) : AngleOf (angleMag piBits s) (Real.pi * 2 ^ (-s)) :=
  angleOf_scale (by decide) (by norm_num) (by norm_num) midpoint_pi_units pi_units h1 h2

theorem angleOf_threeQuarterPi : AngleOf (angleMag threeQuarterPiBits 0) (3 * Real.pi / 4) := by
  have := angleOf_scale (s := 0) (by decide) (by norm_num) (by norm_num) midpoint_threeQuarterPi_units threeQuarterPi_units
    le_rfl (by norm_num)
  simpa using this

/-- An angle is delivered correctly rounded, and never exactly. -/
theorem AngleOf.delivered {v : Mag} {θ : ℝ} (h : AngleOf v θ) (cw : ControlWord) (neg : Bool) :
    ∃ up x, deliver cw 64 neg v = { signals := { pe := true }, val := some x, c1 := .set up } ∧
      (up = true ↔ θ < |((val x : ℚ) : ℝ)|) ∧ classOf x = .normal ∧
      IsRounding cw.rc (sgn neg * θ) (Int.log 2 θ - 63) ((val x : ℚ) : ℝ) := by
  obtain ⟨q, hq1, hq2, hm, hθ⟩ := h.units
  have hu : v.log2 - (64 : Nat) + 1 = v.log2 - 63 := by push_cast; ring
  have hround := hm.isRounding cw.rc neg
  rw [← hu] at hround
  have hbounds := h.exactly.rep.log2_bounds h.exactly.m_ne
  obtain ⟨pe, up, x, hd, hpe, hup, hc, hs, hv⟩ := deliver_normal (cw := cw) h.exactly hround
    ((two_zpow_le_two_zpow.2 (by have := h.range; omega)).trans hbounds.1)
    ((h.exactly.abs_lt_of_lt hround hbounds.2).trans_le (two_zpow_le_two_zpow.2 (by have := h.range; omega)))
  have hlog : Int.log 2 θ = v.log2 := hθ.log_eq hq1 hq2
  have hpe' : pe = true := by
    rw [hpe, Ne, sgn_mul_inj, hu]
    exact (hm.inexact_iff cw.rc neg).1 rfl
  have habs : |((val x : ℚ) : ℝ)| = (rounded cw.rc neg q true .gt : ℝ) * 2 ^ (v.log2 - 63) := by
    rw [hv, abs_sgn_mul, hu, abs_of_nonneg (by positivity)]
  rw [hpe'] at hd
  refine ⟨up, x, hd, ?_, hc, ?_⟩
  · rw [hup, ← hv, habs, ← hθ.up_iff cw.rc neg, hm.up_iff cw.rc neg, abs_sgn_mul, abs_of_pos h.exactly.pos]
  · rw [hlog, hv, hu]
    exact hθ.isRounding cw.rc neg

/-- The rows of the table that give multiples of pi, for x = ST(0) and y = ST(1). -/
def AngleRow (dm : Bool) (x y : Ext) (θ : ℝ) : Prop :=
  (classOf y = .zero ∧ (usable dm x = true ∨ classOf x = .infinity) ∧ signOf x = true ∧ θ = Real.pi) ∨
  (classOf y = .infinity ∧ classOf x = .infinity ∧ signOf x = false ∧ θ = Real.pi / 4) ∨
  (classOf y = .infinity ∧ classOf x = .infinity ∧ signOf x = true ∧ θ = 3 * Real.pi / 4) ∨
  (classOf y = .infinity ∧ usable dm x = true ∧ θ = Real.pi / 2) ∨
  (usable dm y = true ∧ val y ≠ 0 ∧ classOf x = .zero ∧ θ = Real.pi / 2) ∨
  (usable dm y = true ∧ val y ≠ 0 ∧ classOf x = .infinity ∧ signOf x = true ∧ θ = Real.pi)

/-- The operands of a row are no NaN and no unsupported pattern, and a denormal one is masked. -/
theorem AngleRow.operands {dm : Bool} {x y : Ext} {θ : ℝ} (h : AngleRow dm x y θ) :
    (ordinary x = true ∧ (classOf x = .denormal → dm = true)) ∧ (ordinary y = true ∧ (classOf y = .denormal → dm = true)) := by
  have hu {z : Ext} (hz : usable dm z = true) : ordinary z = true ∧ (classOf z = .denormal → dm = true) :=
    ⟨ordinary_of_finite (usable_iff.1 hz).1, (usable_iff.1 hz).2⟩
  have hi {z : Ext} (hz : classOf z = .infinity) : ordinary z = true ∧ (classOf z = .denormal → dm = true) :=
    ⟨by simp [ordinary, hz], fun h => by rw [hz] at h; cases h⟩
  have h0 {z : Ext} (hz : classOf z = .zero) : ordinary z = true ∧ (classOf z = .denormal → dm = true) :=
    ⟨by simp [ordinary, finite, hz], fun h => by rw [hz] at h; cases h⟩
  rcases h with ⟨hy, hx, -⟩ | ⟨hy, hx, -⟩ | ⟨hy, hx, -⟩ | ⟨hy, hx, -⟩ | ⟨hy, -, hx, -⟩ | ⟨hy, -, hx, -⟩
  · exact ⟨hx.elim hu hi, h0 hy⟩
  · exact ⟨hi hx, hi hy⟩
  · exact ⟨hi hx, hi hy⟩
  · exact ⟨hu hx, hi hy⟩
  · exact ⟨h0 hx, hu hy⟩
  · exact ⟨hi hx, hu hy⟩

theorem AngleRow.atanCase {dm : Bool} {x y : Ext} {θ : ℝ} (h : AngleRow dm x y θ) :
    ∃ v, atanCase y x = .angle v ∧ AngleOf v θ := by
  have hpi : AngleOf (angleMag piBits 0) Real.pi := by simpa using angleOf_pi (s := 0) le_rfl (by norm_num)
  have hhalf : AngleOf (angleMag piBits 1) (Real.pi / 2) := by
    have := angleOf_pi (s := 1) (by norm_num) (by norm_num)
    rwa [zpow_neg, zpow_one, ← div_eq_mul_inv] at this
  have hquarter : AngleOf (angleMag piBits 2) (Real.pi / 4) := by
    have := angleOf_pi (s := 2) (by norm_num) le_rfl
    rwa [zpow_neg, show (2 : ℝ) ^ (2 : ℤ) = 4 by norm_num, ← div_eq_mul_inv] at this
  have hnum (hu : usable dm y = true) (h0 : val y ≠ 0) : classOf y ≠ .zero ∧ classOf y ≠ .infinity :=
    ⟨fun h => h0 ((classOf_zero_iff_val (usable_iff.1 hu).1).1 h), classOf_ne_infinity (usable_iff.1 hu).1⟩
  unfold Machine.atanCase
  rcases h with ⟨hy, -, hs, rfl⟩ | ⟨hy, hx, hs, rfl⟩ | ⟨hy, hx, hs, rfl⟩ | ⟨hy, hx, rfl⟩ | ⟨hu, h0, hx, rfl⟩ | ⟨hu, h0, hx, hs, rfl⟩
  · exact ⟨_, by rw [if_pos hy, if_pos hs], hpi⟩
  · exact ⟨_, by simp [hy, hx, hs], hquarter⟩
  · exact ⟨_, by simp [hy, hx, hs], angleOf_threeQuarterPi⟩
  · exact ⟨_, by simp [hy, classOf_ne_infinity (usable_iff.1 hx).1], hhalf⟩
  · obtain ⟨h1, h2⟩ := hnum hu h0
    exact ⟨_, by simp [h1, h2, hx], hhalf⟩
  · obtain ⟨h1, h2⟩ := hnum hu h0
    exact ⟨_, by simp [h1, h2, hx, hs], hpi⟩

/-- Settles O52: `AngleRow.atanCase`, and the angle delivered. -/
theorem arctangentTableAngles : Obligations.ArctangentTableAngles := by
  unfold Obligations.ArctangentTableAngles
  intro p s θ ho h0 h1 hrow
  have hrow : AngleRow s.npx.cw.dm (s.npx.st 0) (s.npx.st 1) θ := hrow
  obtain ⟨v, hcase, hangle⟩ := hrow.atanCase
  obtain ⟨hx, hy⟩ := hrow.operands
  have he : (⟨[.reg 0, .reg 1], 1, 1⟩ : ResultForm).hasEmpty s (.fpatan p) = false := by
    show (s.npx.empty 0 || (s.npx.empty 1 || false)) = false
    rw [h0, h1]
    rfl
  have e := ran_computed (s := s) (i := .fpatan p) rfl he rfl
  have hr : computedValue (.fpatan p) s.draws (operandBytes s (.fpatan p)) s.npx =
      (deliver s.npx.cw 64 (signOf (s.npx.st 1)) v).withDenormal
        (classOf (s.npx.st 0) == .denormal || classOf (s.npx.st 1) == .denormal) := by
    show atanResult s.npx.cw (s.npx.st 0) (s.npx.st 1) = _
    rw [atanResult, Result.twoOperands_of_ordinary hx.1 hy.1, hcase, Result.denormal_masked]
    intro h
    exact (Bool.or_eq_true_iff.1 h).elim (fun h => hx.2 (beq_iff_eq.1 h)) (fun h => hy.2 (beq_iff_eq.1 h))
  obtain ⟨up, r, hd, hup, hc, hround⟩ := hangle.delivered s.npx.cw (signOf (s.npx.st 1))
  rw [hr, hd] at e
  have hsgn : (if signOf (s.npx.st 1) then -θ else θ) = sgn (signOf (s.npx.st 1)) * θ := by
    cases signOf (s.npx.st 1) <;> simp
  refine ⟨_, r, exec_of_operable ho, e.delivers r (by simp), hc, ?_, by simpa using e.raised, ?_⟩
  · rw [hsgn]
    exact hround
  · rw [e.c1 up (by simp), hup]

end Sys2Proof.Machine
end

section
/-! PROOFS. What every result reports: the exceptions an instruction may raise and no other (spec/60_exceptions.md R401), SF
only with IE (R35), and nothing delivered under an unmasked IE, DE or ZE (R173). -/

namespace Sys2Proof.Machine

/-- An unmasked exception that ends an instruction before its result (R173). -/
def Signals.aborts (a : Signals) (cw : ControlWord) : Bool := (a.ie && !cw.im) || (a.de && !cw.dm) || (a.ze && !cw.zm)

/-- Every exception of a is one of g. -/
structure Signals.Within (a g : Signals) : Prop where
  ie : a.ie = true → g.ie = true
  de : a.de = true → g.de = true
  ze : a.ze = true → g.ze = true
  oe : a.oe = true → g.oe = true
  ue : a.ue = true → g.ue = true
  pe : a.pe = true → g.pe = true

/-- A result reports exceptions of g alone, SF with IE alone, and delivers nothing under an unmasked one that comes before
it. -/
structure Reports {α : Type} (g : Signals) (cw : ControlWord) (r : Result α) : Prop where
  within : r.signals.Within g
  sf : r.sf = true → r.signals.ie = true
  aborts : r.signals.aborts cw = true → r.val = none

namespace Reports

variable {α : Type} {g : Signals} {cw : ControlWord}

theorem ok (v : α) : Reports g cw (.ok v) := ⟨⟨nofun, nofun, nofun, nofun, nofun, nofun⟩, nofun, nofun⟩

/-- Overflow, underflow and loss of precision come after the result. -/
theorem post {r : Result α} (hie : r.signals.ie = false) (hde : r.signals.de = false) (hze : r.signals.ze = false)
    (hsf : r.sf = false) (hoe : r.signals.oe = true → g.oe = true) (hue : r.signals.ue = true → g.ue = true)
    (hpe : r.signals.pe = true → g.pe = true) : Reports g cw r := by
  refine ⟨⟨?_, ?_, ?_, hoe, hue, hpe⟩, ?_, ?_⟩
  · rw [hie]; exact nofun
  · rw [hde]; exact nofun
  · rw [hze]; exact nofun
  · rw [hsf]; exact nofun
  · rw [Signals.aborts, hie, hde, hze]; exact nofun

theorem ite {p : Prop} [Decidable p] {r t : Result α} (hr : Reports g cw r) (ht : Reports g cw t) :
    Reports g cw (if p then r else t) := by
  split
  · exact hr
  · exact ht

/-- A rounded result. -/
theorem inexact (hpe : g.pe = true) (b : Bool) (v : Option α) (c : C1Effect) :
    Reports g cw { signals := { pe := b }, val := v, c1 := c } :=
  post rfl rfl rfl rfl nofun nofun fun _ => hpe

/-- An invalid operation, a stack fault or not (R171). -/
theorem of_ie {r : Result α} (hg : g.ie = true) (hs : r.signals = { ie := true }) (hv : cw.im = false → r.val = none) :
    Reports g cw r := by
  refine ⟨?_, fun _ => by rw [hs], fun h => hv ?_⟩
  · rw [hs]
    exact ⟨fun _ => hg, nofun, nofun, nofun, nofun, nofun⟩
  · rw [hs] at h
    simpa [Signals.aborts] using h

theorem invalid (hg : g.ie = true) (v : α) : Reports g cw (.invalid cw v) :=
  of_ie hg rfl fun h => if_neg (ne_true_of_eq_false h)

theorem underflow (hg : g.ie = true) (v : α) : Reports g cw (.underflow cw v) :=
  of_ie hg rfl fun h => if_neg (ne_true_of_eq_false h)

theorem overflow (hg : g.ie = true) (v : α) : Reports g cw (.overflow cw v) :=
  of_ie hg rfl fun h => if_neg (ne_true_of_eq_false h)

theorem zeroDivide (hg : g.ze = true) (v : α) : Reports g cw (.zeroDivide cw v) := by
  refine ⟨⟨nofun, nofun, fun _ => hg, nofun, nofun, nofun⟩, nofun, fun h => if_neg ?_⟩
  simpa [Signals.aborts, Result.zeroDivide] using h

theorem denormalAbort (hg : g.de = true) : Reports g cw (.denormalAbort : Result α) :=
  ⟨⟨nofun, fun _ => hg, nofun, nofun, nofun, nofun⟩, nofun, fun _ => rfl⟩

/-- A masked denormal operand adds its flag. -/
theorem withDenormal {r : Result α} (h : Reports g cw r) {d : Bool} (hg : d = true → g.de = true ∧ cw.dm = true) :
    Reports g cw (r.withDenormal d) := by
  obtain ⟨⟨hie, hde, hze, hoe, hue, hpe⟩, hsf, hab⟩ := h
  cases d with
  | false => exact ⟨⟨hie, hde, hze, hoe, hue, hpe⟩, hsf, hab⟩
  | true =>
    obtain ⟨hde', hdm⟩ := hg rfl
    refine ⟨⟨hie, fun _ => hde', hze, hoe, hue, hpe⟩, hsf, fun h => hab ?_⟩
    simp only [Signals.aborts, Result.withDenormal, if_true, hdm] at h ⊢
    simp only [Bool.not_true, Bool.and_false, Bool.or_false] at h
    rw [Bool.or_eq_true] at h
    rcases h with h | h <;> simp [h]

theorem denormal {r : Result α} (hg : g.de = true) (h : Reports g cw r) (d : Bool) : Reports g cw (.denormal cw d r) := by
  by_cases hd : d = true ∧ cw.dm = false
  · rw [Result.denormal_unmasked _ _ _ hd.1 hd.2]
    exact denormalAbort hg
  · have hm : d = true → cw.dm = true := fun h1 => by
      by_contra h2
      exact hd ⟨h1, Bool.eq_false_iff.2 h2⟩
    rw [Result.denormal_masked _ _ _ hm]
    exact h.withDenormal fun hd => ⟨hg, hm hd⟩

theorem keepC1OnAbort {r : Result α} (h : Reports g cw r) : Reports g cw r.keepC1OnAbort := by
  refine ⟨?_, ?_, ?_⟩
  · rw [Result.keepC1OnAbort_signals]; exact h.within
  · rw [Result.keepC1OnAbort_sf, Result.keepC1OnAbort_signals]; exact h.sf
  · rw [Result.keepC1OnAbort_signals, Result.keepC1OnAbort_val]; exact h.aborts

/-- The class tests signal IE alone; an operand of no such class goes on. -/
theorem oneOperand (hg : g.ie = true) {x : Ext} {k : Result Ext} (h : ordinary x = true → Reports g cw k) :
    Reports g cw (.oneOperand cw x k) := by
  have ho := ordinary_iff x
  unfold Result.oneOperand
  split
  · exact invalid hg _
  · exact invalid hg _
  · exact ok _
  · refine h (ho.2 ⟨?_, ?_, ?_⟩) <;> simp_all

theorem twoOperands (hg : g.ie = true) {a b : Ext} {k : Result Ext}
    (h : ordinary a = true → ordinary b = true → Reports g cw k) : Reports g cw (.twoOperands cw a b k) := by
  have ha := ordinary_iff a
  have hb := ordinary_iff b
  unfold Result.twoOperands
  split_ifs with h1 h2 h3
  · exact invalid hg _
  · exact invalid hg _
  · exact ok _
  · exact h (ha.2 ⟨fun h => h1 (.inl h), fun h => h2 (.inl h), fun h => h3 (.inl h)⟩)
      (hb.2 ⟨fun h => h1 (.inr h), fun h => h2 (.inr h), fun h => h3 (.inr h)⟩)

end Reports

/-! Delivery. -/

theorem deliver_signals (cw : ControlWord) (p : Nat) (neg : Bool) (v : Mag) :
    (deliver cw p neg v).signals.ie = false ∧ (deliver cw p neg v).signals.de = false ∧
      (deliver cw p neg v).signals.ze = false ∧ (deliver cw p neg v).sf = false ∧
      ((deliver cw p neg v).signals.oe = true → 16384 ≤ ((roundTo cw.rc neg p v).q.log2 : ℤ) + (v.log2 - p + 1)) := by
  unfold deliver
  dsimp only
  split_ifs with h1 h2
  · unfold deliverOverflow
    split_ifs <;> exact ⟨rfl, rfl, rfl, rfl, fun _ => h1⟩
  · unfold deliverUnderflow
    split_ifs <;> exact ⟨rfl, rfl, rfl, rfl, nofun⟩
  · exact ⟨rfl, rfl, rfl, rfl, nofun⟩

variable {g : Signals} {cw : ControlWord}

theorem deliver_reports (hoe : g.oe = true) (hue : g.ue = true) (hpe : g.pe = true) (p : Nat) (neg : Bool) (v : Mag) :
    Reports g cw (deliver cw p neg v) := by
  obtain ⟨hie, hde, hze, hsf, -⟩ := deliver_signals cw p neg v
  exact .post hie hde hze hsf (fun _ => hoe) (fun _ => hue) fun _ => hpe

/-- The real numbers a magnitude stands for are not empty. -/
theorem exists_exactly {v : Mag} (hm : v.m ≠ 0) (hs : v.sticky = true → 2 ^ 65 ≤ v.m) : ∃ a : ℝ, Exactly v 64 a := by
  cases h : v.sticky with
  | true => exact ⟨_, exactly_midpoint h (hs h)⟩
  | false => exact ⟨v.m * 2 ^ v.e, by simp [Mag.Rep, h], hm, by norm_num, le_rfl, hs⟩

/-- A result of moderate size does not overflow. -/
theorem deliver_reports_of_small (hue : g.ue = true) (hpe : g.pe = true) (neg : Bool) {v : Mag} (hm : v.m ≠ 0)
    (hs : v.sticky = true → 2 ^ 65 ≤ v.m) (hlog : v.log2 < 16000) : Reports g cw (deliver cw 64 neg v) := by
  obtain ⟨hie, hde, hze, hsf, hov⟩ := deliver_signals cw 64 neg v
  refine .post hie hde hze hsf (fun h => ?_) (fun _ => hue) fun _ => hpe
  obtain ⟨a, ha⟩ := exists_exactly hm hs
  obtain ⟨h1, h2⟩ := ha.bits cw.rc neg
  have hq : (roundTo cw.rc neg 64 v).q.log2 ≤ 64 := by
    rw [← Nat.lt_succ_iff, Nat.log2_lt (by omega)]
    exact h2.trans_lt (by norm_num)
  have := hov h
  omega

theorem transcMag_log2_le {f : TranscFn} {x y : Ext} {e : ℤ} (he : transcMaxExponent f y = some e) :
    (transcMag f x y).log2 ≤ e := by
  have hlog : (2 ^ 66 + (Config.transc f x y).frac.toNat).log2 = 66 := by
    have := (Config.transc f x y).frac.isLt
    rw [Nat.log2_eq_iff (by omega)]
    omega
  unfold transcMag Mag.log2
  dsimp only
  rw [hlog, he]
  push_cast
  omega

theorem transcMag_m (f : TranscFn) (x y : Ext) : 2 ^ 66 ≤ (transcMag f x y).m := Nat.le_add_right _ _

theorem deliverTransc_reports (hoe : g.oe = true) (hue : g.ue = true) (hpe : g.pe = true) (f : TranscFn) (x y : Ext)
    (s : Bool) : Reports g cw (deliverTransc cw f x y s) := by
  unfold deliverTransc
  split_ifs
  · exact .ok _
  · exact deliver_reports hoe hue hpe 64 s _

/-- The sine, the cosine and the arctangent do not overflow. -/
theorem deliverTransc_reports_of_bounded (hue : g.ue = true) (hpe : g.pe = true) {f : TranscFn} {x y : Ext} {e : ℤ}
    (he : transcMaxExponent f y = some e) (hlt : e < 16000) (s : Bool) : Reports g cw (deliverTransc cw f x y s) := by
  have hm := transcMag_m f x y
  unfold deliverTransc
  split_ifs
  · exact .ok _
  · refine deliver_reports_of_small hue hpe s (by omega) (fun _ => le_trans (by norm_num) hm) ?_
    exact (transcMag_log2_le he).trans_lt hlt

/-- Only a division divides by zero (R263). -/
theorem op_of_zeroDivide {op : ArithOp} {rc : BitVec 2} {a b : Ext} (h : exactOf op rc a b = .zeroDivide) : op = .div := by
  have hadd (c : Ext) : exactAdd rc a c ≠ .zeroDivide := by
    unfold exactAdd
    split_ifs <;> exact nofun
  cases op with
  | add => exact absurd h (hadd b)
  | sub => exact absurd h (hadd (negate b))
  | mul =>
    have hmul : exactMul a b ≠ .zeroDivide := by
      unfold exactMul
      dsimp only
      split_ifs <;> exact nofun
    exact absurd h hmul
  | div => rfl

/-- The angles of the table are below 4. -/
theorem atanCase_small {x y : Ext} {v : Mag} (h : atanCase y x = .angle v) : 2 ^ 65 ≤ v.m ∧ v.log2 < 16000 := by
  have hpi {s : ℤ} (hs : 0 ≤ s) : 2 ^ 65 ≤ (angleMag piBits s).m ∧ (angleMag piBits s).log2 < 16000 := by
    refine ⟨by norm_num [angleMag, piBits], ?_⟩
    show -256 - s + (piBits.log2 : ℤ) < 16000
    rw [show piBits.log2 = 257 by decide]
    push_cast
    omega
  unfold atanCase at h
  split_ifs at h <;> cases h
  · exact hpi le_rfl
  · exact ⟨by norm_num [angleMag, threeQuarterPiBits], by decide⟩
  · exact hpi (by norm_num)
  · exact hpi (by norm_num)
  · exact hpi (by norm_num)
  · exact hpi le_rfl

/-! The computing instructions, by what their rules may raise. -/

section

variable (hie : g.ie = true)
include hie

theorem sqrtResult_reports (hde : g.de = true) (hpe : g.pe = true) (x : Ext) : Reports g cw (sqrtResult cw x) := by
  refine .oneOperand hie fun ho => ?_
  split_ifs with hz hs hi
  · exact .ok _
  · exact .invalid hie _
  · exact .ok _
  · have hf : finite x = true := by
      simp only [ordinary, Bool.or_eq_true, beq_iff_eq] at ho
      exact ho.resolve_right hi
    have h0 : val x ≠ 0 := fun h => hz ((classOf_zero_iff_val hf).2 h)
    have hp : 1 ≤ precisionOf cw.pc ∧ precisionOf cw.pc ≤ 64 := by
      unfold precisionOf
      split <;> norm_num
    obtain ⟨r, hd, -⟩ := sqrt_delivered (cw := cw) hf ((val_pos_iff h0).2 (Bool.eq_false_iff.2 hs)) hp.1 hp.2
    rw [hd]
    exact .denormal hde (.inexact hpe _ _ _) _

theorem rndintResult_reports (hde : g.de = true) (hpe : g.pe = true) (x : Ext) : Reports g cw (rndintResult cw x) := by
  refine .oneOperand hie fun _ => ?_
  split_ifs
  · exact .ok _
  · exact .denormal hde (.ok _) _
  · exact .denormal hde (.inexact hpe _ _ _) _

theorem trigResult_reports (hde : g.de = true) (hue : g.ue = true) (hpe : g.pe = true) {f : TranscFn}
    (hf : transcMaxExponent f 0 = some 0) (sign : Ext → Bool) (zero : Ext → Ext) (x : Ext) :
    Reports g cw (trigResult cw f sign zero x) := by
  refine .oneOperand hie fun _ => ?_
  split_ifs
  · exact .invalid hie _
  · exact .ok _
  · exact .denormal hde (deliverTransc_reports_of_bounded hue hpe hf (by norm_num) _) _

theorem scaleResult_reports (hde : g.de = true) (hoe : g.oe = true) (hue : g.ue = true) (hpe : g.pe = true) (x y : Ext) :
    Reports g cw (scaleResult cw x y) := by
  refine .twoOperands hie fun _ _ => .ite (.invalid hie _) (.denormal hde ?_ _)
  exact .ite (.ok _) (.ite (.ok _) (deliver_reports hoe hue hpe _ _ _))

theorem binop_reports (hde : g.de = true) (hoe : g.oe = true) (hue : g.ue = true) (hpe : g.pe = true) {op : ArithOp}
    (hze : op = .div → g.ze = true) (p : Nat) (l r : Operand80) : Reports g cw (binop cw op p l r) := by
  refine .twoOperands hie fun _ _ => ?_
  split_ifs with hi
  · exact .invalid hie _
  refine .denormal hde ?_ _
  cases he : exactOf op cw.rc l.x r.x with
  | indeterminate => exact absurd he hi
  | zeroDivide =>
    exact .zeroDivide (hze (op_of_zeroDivide he)) _
  | zero s => exact .ok _
  | inf s => exact .ok _
  | fin s v => exact deliver_reports hoe hue hpe p s v

theorem exp2m1Result_reports (hde : g.de = true) (hoe : g.oe = true) (hue : g.ue = true) (hpe : g.pe = true) (n : Nat)
    (x : Ext) : Reports g cw (exp2m1Result cw n x) := by
  refine .oneOperand hie fun _ => ?_
  split_ifs
  · exact .ok _
  · exact .ok _
  · exact .ok _
  · exact .post rfl rfl rfl rfl (fun _ => hoe) (fun _ => hue) fun _ => hpe
  · exact .denormal hde (deliverTransc_reports hoe hue hpe _ _ _ _) _

theorem atanResult_reports (hde : g.de = true) (hue : g.ue = true) (hpe : g.pe = true) (x y : Ext) :
    Reports g cw (atanResult cw x y) := by
  refine .twoOperands hie fun _ _ => .denormal hde ?_ _
  split
  · exact .ok _
  · next v hv =>
    obtain ⟨hm, hlog⟩ := atanCase_small hv
    exact deliver_reports_of_small hue hpe _ (by omega) (fun _ => hm) hlog
  · exact deliverTransc_reports_of_bounded hue hpe (e := 1) rfl (by norm_num) _

theorem yl2xResult_reports (hde : g.de = true) (hze : g.ze = true) (hoe : g.oe = true) (hue : g.ue = true)
    (hpe : g.pe = true) (x y : Ext) : Reports g cw (yl2xResult cw x y) := by
  refine .twoOperands hie fun _ _ => ?_
  split_ifs
  · exact .invalid hie _
  all_goals refine .denormal hde ?_ _
  · exact .ok _
  · exact .zeroDivide hze _
  · exact .ok _
  · exact .ok _
  · exact .ok _
  · exact .ok _
  · split
    · exact deliver_reports hoe hue hpe _ _ _
    · exact deliverTransc_reports hoe hue hpe _ _ _ _

theorem yl2xp1Result_reports (hde : g.de = true) (hoe : g.oe = true) (hue : g.ue = true) (hpe : g.pe = true) (n : Nat)
    (x y : Ext) : Reports g cw (yl2xp1Result cw n x y) := by
  refine .twoOperands hie fun _ _ => ?_
  split_ifs
  · exact .post rfl rfl rfl rfl (fun _ => hoe) (fun _ => hue) fun _ => hpe
  · exact .invalid hie _
  all_goals refine .denormal hde ?_ _
  · exact .ok _
  · exact .ok _
  · exact .ok _
  · exact deliverTransc_reports hoe hue hpe _ _ _ _

/-! FPREM and FPREM1 deliver exactly (R286, R287). -/

omit hie in
/-- A remainder of two nonzero numbers is exact. -/
theorem premReduce_reports (hue : g.ue = true) (nearest : Bool) {x y : Ext} (hx : finite x = true) (hx0 : val x ≠ 0)
    (hy0 : val y ≠ 0) : Reports g cw (premReduce cw nearest x y).result := by
  have hrem {M : Nat} {e : ℤ} (h : Remainder M e) (neg c1 : Bool) : Reports g cw (deliverRemainder cw neg M e c1) := by
    obtain ⟨r, hd, -⟩ := h.delivered cw neg c1 rfl
    rw [hd]
    exact .post rfl rfl rfl rfl nofun (fun _ => hue) nofun
  rcases lt_or_ge (Int.log 2 |val x| - Int.log 2 |val y|) 64 with hd | hd
  · have hsh := shared_of_val (x := x) hy0
    have hq := (unitsIn_div (shiftedSig x (commonExp x y)) hsh.pos).isRounding (premRounding nearest) (signOf x != signOf y)
    rw [zpow_zero, mul_one, ← hsh.div_eq, ← signedInt_cast] at hq
    obtain ⟨M, neg, hM, -, -, hred⟩ := premReduce_complete cw nearest hx hx0 hy0 hd hq
    rw [hred]
    exact hrem hM _ _
  · obtain ⟨q, M, e, -, hM, -, -, hred⟩ := premReduce_incomplete cw nearest hx hx0 hy0 rfl hd
    rw [hred]
    exact hrem hM _ _

theorem premOutcome_reports (hde : g.de = true) (hue : g.ue = true) (nearest : Bool) (x y : Ext) :
    Reports g cw (premOutcome cw nearest x y).result := by
  unfold premOutcome
  split_ifs with hu hn hi hd hz
  · exact (Reports.invalid hie _).keepC1OnAbort
  · exact .twoOperands hie fun _ _ => .ok x
  · exact (Reports.invalid hie _).keepC1OnAbort
  · exact (Reports.denormalAbort hde).keepC1OnAbort
  all_goals
    have hm : (classOf x == .denormal || classOf y == .denormal) = true → g.de = true ∧ cw.dm = true := fun h => by
      refine ⟨hde, ?_⟩
      by_contra hdm
      exact hd ⟨by simpa using h, Bool.eq_false_iff.2 hdm⟩
    refine Reports.withDenormal ?_ hm
  · exact .ok x
  · have hnan : classOf x ≠ .qnan ∧ classOf x ≠ .snan ∧ classOf y ≠ .qnan ∧ classOf y ≠ .snan := by
      rw [Bool.or_eq_true, isNaN_iff, isNaN_iff] at hn
      tauto
    have hx : ordinary x = true := (ordinary_iff x).2 ⟨fun h => hu (.inl h), hnan.2.1, hnan.1⟩
    have hy : ordinary y = true := (ordinary_iff y).2 ⟨fun h => hu (.inr h), hnan.2.2.2, hnan.2.2.1⟩
    have hfx : finite x = true := by
      simp only [ordinary, Bool.or_eq_true, beq_iff_eq] at hx
      exact hx.resolve_right fun h => hi (.inl h)
    have hfy : finite y = true := by
      simp only [ordinary, Bool.or_eq_true, beq_iff_eq] at hy
      exact hy.resolve_right fun h => hz (.inl h)
    exact premReduce_reports hue nearest hfx (fun h => hz (.inr ((classOf_zero_iff_val hfx).2 h)))
      fun h => hi (.inr ((classOf_zero_iff_val hfy).2 h))

/-! The pairs. -/

theorem xtractResult_reports (hde : g.de = true) (hze : g.ze = true) (x : Ext) : Reports g cw (xtractResult cw x) := by
  unfold xtractResult
  split
  · exact .invalid hie _
  · exact .invalid hie _
  · exact .ok _
  · exact .zeroDivide hze _
  · exact .ok _
  · exact .denormal hde (.ok _) _
  · exact .denormal hde (.ok _) _

theorem pairOperand_reports {x : Ext} {k : Result (Ext × Ext)} (h : Reports g cw k) : Reports g cw (pairOperand cw x k) := by
  unfold pairOperand
  split
  · exact .invalid hie _
  · exact .invalid hie _
  · exact .invalid hie _
  · exact .ok _
  · exact h
  · exact h
  · exact h

omit hie in
/-- A result that delivers, and what follows it for a pair. -/
theorem paired_reports {r : Result Ext} (h : Reports g cw r) (b : Ext) : Reports g cw (r.paired b) :=
  ⟨h.within, h.sf, fun ha => by rw [Result.paired, h.aborts ha]; rfl⟩

omit hie in
theorem both_reports {r t : Result Ext} (hr : Reports g cw r) (ht : Reports g cw t) : Reports g cw (r.both t) := by
  have either {a b c : Bool} (ha : a = true → c = true) (hb : b = true → c = true) (h : (a || b) = true) : c = true :=
    (Bool.or_eq_true_iff.1 h).elim ha hb
  obtain ⟨⟨h1, h2, h3, h4, h5, h6⟩, hsf, hab⟩ := hr
  obtain ⟨⟨k1, k2, k3, k4, k5, k6⟩, ksf, kab⟩ := ht
  refine ⟨⟨either h1 k1, either h2 k2, either h3 k3, either h4 k4, either h5 k5, either h6 k6⟩, fun h => ?_, fun h => ?_⟩
  · exact Bool.or_eq_true_iff.2 ((Bool.or_eq_true_iff.1 h).imp hsf ksf)
  · have hor : r.signals.aborts cw = true ∨ t.signals.aborts cw = true := by
      simp only [Result.both, Signals.aborts, Bool.or_eq_true, Bool.and_eq_true] at h ⊢
      rcases h with (⟨h | h, hm⟩ | ⟨h | h, hm⟩) | ⟨h | h, hm⟩ <;> simp [h, hm]
    rcases hor with h | h
    · rw [Result.both, hab h]
    · rw [Result.both, kab h]
      cases r.val <;> rfl

theorem tanResult_reports (hde : g.de = true) (hoe : g.oe = true) (hue : g.ue = true) (hpe : g.pe = true) (x : Ext) :
    Reports g cw (tanResult cw x) := by
  refine pairOperand_reports hie ?_
  split_ifs
  · exact .ok _
  · exact .denormal hde (paired_reports (deliverTransc_reports hoe hue hpe _ _ _ _) _) _

theorem sincosResult_reports (hde : g.de = true) (hue : g.ue = true) (hpe : g.pe = true) (x : Ext) :
    Reports g cw (sincosResult cw x) := by
  refine pairOperand_reports hie ?_
  split_ifs
  · exact .ok _
  · refine .denormal hde (both_reports ?_ ?_) _
    · exact deliverTransc_reports_of_bounded hue hpe (e := 0) rfl (by norm_num) _
    · exact deliverTransc_reports_of_bounded hue hpe (e := 0) rfl (by norm_num) _

/-! Comparisons, loads and stores. -/

theorem compareOperands_reports (hde : g.de = true) (ord : Bool) (l r : Operand80) :
    Reports g cw (compareOperands cw ord l r) := by
  unfold compareOperands
  dsimp only
  split_ifs
  · exact .invalid hie _
  · exact .ok _
  · exact .denormal hde (.ok _) _

theorem loadReal_reports (hde : g.de = true) (f : RealFormat) (y : Nat) : Reports g cw (loadReal cw f y) := by
  unfold loadReal
  dsimp only
  split_ifs
  · exact .invalid hie _
  · exact .denormal hde (.ok _) _

theorem storeReal_reports (hoe : g.oe = true) (hue : g.ue = true) (hpe : g.pe = true) (f : RealFormat) (x : Ext) :
    Reports g cw (storeReal cw f x) := by
  have hpost {r : Result Nat} (h1 : r.signals.ie = false) (h2 : r.signals.de = false) (h3 : r.signals.ze = false)
      (h4 : r.sf = false) : Reports g cw r := .post h1 h2 h3 h4 (fun _ => hoe) (fun _ => hue) fun _ => hpe
  unfold storeReal
  dsimp only
  split
  · exact .invalid hie _
  · exact .invalid hie _
  · exact .ok _
  · exact .ok _
  · exact .ok _
  all_goals split_ifs <;> exact hpost rfl rfl rfl rfl

theorem storeInt_reports (hpe : g.pe = true) (n : Nat) (x : Ext) : Reports g cw (storeInt cw n x) := by
  unfold storeInt
  dsimp only
  split
  · exact .invalid hie _
  · exact .invalid hie _
  · exact .invalid hie _
  · exact .invalid hie _
  · exact .ok _
  · exact .ite (.invalid hie _) (.inexact hpe _ _ _)
  · exact .ite (.invalid hie _) (.inexact hpe _ _ _)

theorem storeBcd_reports (hpe : g.pe = true) (x : Ext) : Reports g cw (storeBcd cw x) := by
  unfold storeBcd
  dsimp only
  split
  · exact .invalid hie _
  · exact .invalid hie _
  · exact .invalid hie _
  · exact .invalid hie _
  · exact .ok _
  · exact .ite (.invalid hie _) (.inexact hpe _ _ _)
  · exact .ite (.invalid hie _) (.inexact hpe _ _ _)

end

end Sys2Proof.Machine
end

section
/-! PROOFS. The exception flags (spec/10_state.md R35, R36; spec/40_numerics_common.md R170, R173): sticky, SF with IE, and no
result under an unmasked IE, DE or ZE. -/

namespace Sys2Proof.Machine

/-! What each family may raise. -/

theorem mayRaise_arith {i : Instr} {a : ArithForm} (h : arithForm i = some a) {g : Signals} (hg : mayRaise i = some g) :
    (g.ie = true ∧ g.de = true ∧ g.oe = true ∧ g.ue = true ∧ g.pe = true) ∧ (a.op = .div → g.ze = true) := by
  cases i <;> cases h <;> cases hg <;> exact ⟨⟨rfl, rfl, rfl, rfl, rfl⟩, fun h => by cases h <;> rfl⟩

theorem mayRaise_compare {i : Instr} {q : Source × Nat} (h : compareForm i = some q) {g : Signals}
    (hg : mayRaise i = some g) : g.ie = true ∧ g.de = true := by
  cases i <;> cases h <;> cases hg <;> exact ⟨rfl, rfl⟩

theorem computedValue_reports {i : Instr} {f : ResultForm} (h : computes i = some f ∨ copies i = some f) {g : Signals}
    (hg : mayRaise i = some g) (n v : Nat) (x : Npx) :
    g.ie = true ∧ Reports g x.cw (computedValue i n v x) := by
  cases ha : arithForm i with
  | some a =>
    obtain ⟨⟨hie, hde, hoe, hue, hpe⟩, hze⟩ := mayRaise_arith ha hg
    unfold computedValue
    simp only [ha]
    exact ⟨hie, binop_reports hie hde hoe hue hpe hze _ _ _⟩
  | none =>
    cases i with
    | fsqrt p => cases hg; exact ⟨rfl, sqrtResult_reports rfl rfl rfl _⟩
    | frndint p => cases hg; exact ⟨rfl, rndintResult_reports rfl rfl rfl _⟩
    | f2xm1 p => cases hg; exact ⟨rfl, exp2m1Result_reports rfl rfl rfl rfl rfl _ _⟩
    | fsin p =>
      cases hg
      have hr (y : Ext) := trigResult_reports (g := { ie := true, de := true, ue := true, pe := true }) (cw := x.cw)
        (f := .sin) rfl rfl rfl rfl rfl sinSign (fun y => y) y
      exact ⟨rfl, hr (x.st 0)⟩
    | fcos p =>
      cases hg
      have hr (y : Ext) := trigResult_reports (g := { ie := true, de := true, ue := true, pe := true }) (cw := x.cw)
        (f := .cos) rfl rfl rfl rfl rfl cosSign (fun _ => one) y
      exact ⟨rfl, hr (x.st 0)⟩
    | fscale p => cases hg; exact ⟨rfl, scaleResult_reports rfl rfl rfl rfl rfl _ _⟩
    | fprem p | fprem1 p => cases hg; exact ⟨rfl, premOutcome_reports rfl rfl rfl _ _ _⟩
    | fpatan p => cases hg; exact ⟨rfl, atanResult_reports rfl rfl rfl rfl _ _⟩
    | fyl2x p => cases hg; exact ⟨rfl, yl2xResult_reports rfl rfl rfl rfl rfl rfl _ _⟩
    | fyl2xp1 p => cases hg; exact ⟨rfl, yl2xp1Result_reports rfl rfl rfl rfl rfl _ _ _⟩
    | fstSti p j | fstpSti p j => cases hg; exact ⟨rfl, .ok _⟩
    | _ => cases ha <;> rcases h with h | h <;> cases h

theorem computed_reports {i : Instr} {f : ResultForm} (h : computes i = some f ∨ copies i = some f) {g : Signals}
    (hg : mayRaise i = some g) (n v : Nat) (x : Npx) : Reports g x.cw (computed i n v x) := by
  obtain ⟨hie, hr⟩ := computedValue_reports h hg n v x
  exact .ite (.underflow hie _) hr

theorem pairResult_reports {i : Instr} (h : makesPair i = true) {g : Signals} (hg : mayRaise i = some g) (x : Npx) :
    Reports g x.cw (pairResult i x) := by
  cases i with
  | fxtract p => cases hg; exact .ite (.underflow rfl _) (.ite (.overflow rfl _) (xtractResult_reports rfl rfl rfl _))
  | fptan p => cases hg; exact .ite (.underflow rfl _) (.ite (.overflow rfl _) (tanResult_reports rfl rfl rfl rfl rfl _))
  | fsincos p => cases hg; exact .ite (.underflow rfl _) (.ite (.overflow rfl _) (sincosResult_reports rfl rfl rfl rfl _))
  | _ => cases h

theorem compareResult_reports {i : Instr} {q : Source} {pops : Nat} (h : compareForm i = some (q, pops)) {g : Signals}
    (hg : mayRaise i = some g) (v : Nat) (x : Npx) : Reports g x.cw (compareResult i q v x) := by
  obtain ⟨hie, hde⟩ := mayRaise_compare h hg
  exact .ite (.underflow hie _) (compareOperands_reports hie hde _ _ _)

theorem pushResult_reports {i : Instr} (h : pushesOne i = true) {g : Signals} (hg : mayRaise i = some g) (x : Npx) (v : Nat) :
    Reports g x.cw (pushResult i x v) := by
  cases i with
  | fldM32r p m | fldM64r p m => cases hg; exact .ite (.overflow rfl _) (loadReal_reports rfl rfl _ _)
  | fldSti p j => cases hg; exact .ite (.underflow rfl _) (.ite (.overflow rfl _) (.ok _))
  | _ => cases h <;> cases hg <;> exact .ite (.overflow rfl _) (.ok _)

theorem storeResult_reports {i : Instr} {indef pops : Nat} (h : storeForm i = some (indef, pops)) {g : Signals}
    (hg : mayRaise i = some g) (x : Npx) : Reports g x.cw (storeResult i indef x) := by
  cases i with
  | fstM32r p m | fstM64r p m | fstpM32r p m | fstpM64r p m =>
    cases hg
    exact .ite (.underflow rfl _) (storeReal_reports rfl rfl rfl rfl _ _)
  | fistM16i p m | fistM32i p m | fistpM16i p m | fistpM32i p m | fistpM64i p m =>
    cases hg
    exact .ite (.underflow rfl _) (storeInt_reports rfl rfl _ _)
  | fbstp p m => cases hg; exact .ite (.underflow rfl _) (storeBcd_reports rfl rfl _)
  | fstpM80r p m => cases hg; exact .ite (.underflow rfl _) (.ok _)
  | _ => cases h

/-! The response of every instruction. -/

/-- An instruction that ran raised exceptions of g alone, SF with IE alone, and under an unmasked one that comes before the
result changed nothing but the status word, whose ES and B it set. -/
def Responds (g : Signals) (i : Instr) (s : State) : Prop :=
  ∃ (a : Signals) (sf : Bool), Raised s.npx (s.ran i).npx a sf ∧ a.Within g ∧ (sf = true → a.ie = true) ∧
    (a.aborts s.npx.cw = true → OnlyAt s.npx (s.ran i).npx [] ∧ (s.ran i).mem = s.mem ∧
      (s.ran i).npx.sw.es = true ∧ (s.ran i).npx.sw.b = true)

theorem Signals.unmasked_of_aborts {a : Signals} {cw : ControlWord} (h : a.aborts cw = true) : a.unmasked cw = true := by
  simp only [Signals.aborts, Signals.unmasked, Bool.or_eq_true, Bool.and_eq_true] at h ⊢
  tauto

/-- A result that reports g, delivered, is such a response. -/
theorem Reports.responds {α : Type} {g : Signals} {i : Instr} {s : State} {done : α → Prop} {r : Result α}
    (hr : Reports g s.npx.cw r) (e : Ends s.npx (s.ran i).npx done r) (hm : r.val = none → (s.ran i).mem = s.mem) :
    Responds g i s := by
  refine ⟨r.signals, r.sf, e.raised, hr.within, hr.sf, fun h => ?_⟩
  have hu := Signals.unmasked_of_aborts h
  exact ⟨e.aborts (hr.aborts h), hm (hr.aborts h), by rw [e.es, hu, Bool.or_true], by rw [e.b, hu, Bool.or_true]⟩

/-- So is an instruction that changes no flag. -/
theorem responds_of_sameFlags {g : Signals} {i : Instr} {s : State} (h : SameFlags s.npx (s.ran i).npx) : Responds g i s := by
  refine ⟨{}, false, by simpa [Raised, SameFlags] using h, ⟨nofun, nofun, nofun, nofun, nofun, nofun⟩, nofun, nofun⟩

theorem mem_ran_of_not_stores {i : Instr} (h : stores i = false) (s : State) : (s.ran i).mem = s.mem :=
  State.memAfter_of_not_stores h s

/-- An unmasked exchange with an empty register sets ES and B (R222). -/
theorem fxch_empty_es {x : Npx} {j : Idx} (h : x.empty 0 = true ∨ x.empty j = true) (hm : x.cw.im = false) (n : Nat) :
    (x.fxch n j).sw.es = true ∧ (x.fxch n j).sw.b = true := by
  rw [Npx.fxch_of_empty h, if_neg (ne_true_of_eq_false hm)]
  simp [Signals.unmasked, Result.underflow, hm]

/-- The instructions that stand alone. -/
theorem responds_of_standsAlone {i : Instr} (h : standsAlone i = true) {g : Signals} (hg : mayRaise i = some g) (s : State) :
    Responds g i s := by
  obtain ⟨a, b, c, he⟩ := s.entry_eq i
  cases i with
  | fabs p | fchs p =>
    cases hg
    cases hem : s.npx.empty 0 with
    | true =>
      exact (Reports.underflow rfl _).responds (ran_setSign_of_empty (p := p) (by simp) hem) fun _ =>
        mem_ran_of_not_stores rfl s
    | false =>
      refine responds_of_sameFlags ?_
      rw [State.ran_npx, State.npxAfter, he]
      exact (setSign_present_spec (x := { s.npx with fip := a, fdp := b, fop := c }) hem s.draws _).2.2
  | fxch p j =>
    cases hg
    obtain ⟨a, b, c, ht⟩ := ran_fxch s p j
    by_cases hem : s.npx.empty 0 = true ∨ s.npx.empty j = true
    · have hx := fxch_empty_flags (x := { s.npx with fip := a, fdp := b, fop := c }) hem s.draws
      refine ⟨{ ie := true }, true, ht ▸ hx.1, ⟨fun _ => rfl, nofun, nofun, nofun, nofun, nofun⟩, fun _ => rfl, fun hab => ?_⟩
      have him : s.npx.cw.im = false := by simpa [Signals.aborts] using hab
      obtain ⟨hes, hb⟩ := fxch_empty_es (x := { s.npx with fip := a, fdp := b, fop := c }) hem him s.draws
      exact ⟨ht ▸ fxch_unmasked (x := { s.npx with fip := a, fdp := b, fop := c }) hem him s.draws,
        mem_ran_of_not_stores rfl s, ht ▸ hes, ht ▸ hb⟩
    · obtain ⟨h0, hj⟩ := not_or.1 hem
      have hx := fxch_present (x := { s.npx with fip := a, fdp := b, fop := c }) (Bool.eq_false_iff.2 h0)
        (Bool.eq_false_iff.2 hj) s.draws
      exact responds_of_sameFlags (ht ▸ hx.2.2.2.2.2.2)
  | finit p | fsave p m | fldenv p m | frstor p m | fclex p => cases hg
  | fxam p | fincstp p | fdecstp p | ffree p j | fnop p | wait p | feni p | fdisi p | fsetpm p | fldcw p m | fstcw p m
  | fstswM16 p m | fstswAx p | fstenv p m =>
    refine responds_of_sameFlags ?_
    rw [State.ran_npx, State.npxAfter, he]
    exact ⟨rfl, rfl, rfl, rfl, rfl, rfl, rfl⟩
  | _ => cases h

theorem responds {i : Instr} {g : Signals} (hg : mayRaise i = some g) (s : State) : Responds g i s := by
  cases hd : declines i s.npx with
  | true => exact responds_of_sameFlags (ran_declines hd).2.1
  | false =>
    rcases family_cases i with hf | hf | ⟨f, hf⟩ | ⟨q, pops, hf⟩ | ⟨indef, pops, hf⟩ | hf
    · have hs : stores i = false := by cases i <;> cases hf <;> rfl
      exact (pushResult_reports hf hg _ _).responds (ran_push hf) fun _ => mem_ran_of_not_stores hs s
    · have hs : stores i = false := by cases i <;> cases hf <;> rfl
      exact (pairResult_reports hf hg _).responds (ran_pair hf hd) fun _ => mem_ran_of_not_stores hs s
    · have hs : stores i = false := by cases i <;> rcases hf with hf | hf <;> cases hf <;> rfl
      exact (computed_reports hf hg _ _ _).responds (ran_computes hf hd) fun _ => mem_ran_of_not_stores hs s
    · have hs : stores i = false := by cases i <;> cases hf <;> rfl
      exact (compareResult_reports hf hg _ _).responds (ran_compare hf) fun _ => mem_ran_of_not_stores hs s
    · exact (storeResult_reports hf hg _).responds (ran_store hf) (mem_ran_of_storeForm hf)
    · exact responds_of_standsAlone hf hg s

/-- A flag that is kept and, if it is set, is one of g. -/
theorem flag_eq_of_within {x y a g : Bool} (h : y = (x || a)) (hg : a = true → g = true) : y = (x || (g && y)) := by
  subst h
  cases x <;> cases a <;> simp_all

/-- Settles O13: every response raises flags of g alone. -/
theorem flagFrame : Obligations.FlagFrame := by
  unfold Obligations.FlagFrame
  intro i s t g h _ ht hg
  obtain rfl := eq_ran_of_next h ht
  obtain ⟨a, sf, ⟨hie, hde, hze, hoe, hue, hpe, hsf⟩, hw, hsfie, -⟩ := responds hg s
  refine ⟨flag_eq_of_within hie hw.ie, flag_eq_of_within hde hw.de, flag_eq_of_within hze hw.ze,
    flag_eq_of_within hoe hw.oe, flag_eq_of_within hue hw.ue, flag_eq_of_within hpe hw.pe, flag_eq_of_within hsf fun h => ?_⟩
  rw [hw.ie (hsfie h), hie, hsfie h, Bool.or_true]
  rfl

/-- A flag that was clear and is set was raised. -/
theorem raised_of_set {x y a : Bool} (h : y = (x || a)) (hx : x = false) (hy : y = true) : a = true := by
  rw [← hy, h, hx, Bool.false_or]

/-- Settles O21: every response under such an exception changed nothing. -/
theorem unmaskedPreOperationChangesNothing : Obligations.UnmaskedPreOperationChangesNothing := by
  unfold Obligations.UnmaskedPreOperationChangesNothing
  intro i s t g h _ ht hg hset
  obtain rfl := eq_ran_of_next h ht
  obtain ⟨a, sf, ⟨hie, hde, hze, -⟩, -, -, hab⟩ := responds hg s
  have haborts : a.aborts s.npx.cw = true := by
    rcases hset with ⟨h1, h2, hm⟩ | ⟨h1, h2, hm⟩ | ⟨h1, h2, hm⟩
    · simp [Signals.aborts, raised_of_set hie h1 h2, hm]
    · simp [Signals.aborts, raised_of_set hde h1 h2, hm]
    · simp [Signals.aborts, raised_of_set hze h1 h2, hm]
  obtain ⟨⟨htop, hk⟩, hmem, hes, hb⟩ := hab haborts
  exact ⟨Npx.regs_ext _ _ fun k => (hk k List.not_mem_nil).1, Npx.tags_ext _ _ fun k => (hk k List.not_mem_nil).2, htop, hmem, hes, hb⟩

end Sys2Proof.Machine
end
